-- ==== Sys2Proof/Word.lean ====
section
/-! DEFINITION. The word types of the core: a `u32` word, a byte, the 40-bit command word (00_scope.md R8, 30_encoding.md R70).
Every quantity is an unsigned bit vector, and its `+`, `-`, `<<<`, `>>>`, `^^^` are the operators of R9. -/

namespace Sys2Proof

/-- A `u32`: key words, data words, the running sum, immediates, response data (R6, R8). -/
abbrev Word := BitVec 32

/-- A `u8`: the bytes of a text, of a chunk and of the output stream (R14, R73). -/
abbrev Byte := BitVec 8

/-- One command word: `op` in bits 39:32, `imm` in bits 31:0 (R70). -/
abbrev CommandWord := BitVec 40

/-- A Chunk: always exactly four bytes, `b0` the first in the text (R14, 10_state.md R31, 60_exceptions.md R216). -/
structure Chunk where
  b0 : Byte
  b1 : Byte
  b2 : Byte
  b3 : Byte
  deriving DecidableEq, Repr

/-- The Key, `k0..k3` (R14, 10_state.md R21). -/
abbrev Key := Vector Word 4

end Sys2Proof
end

