-- ==== Sys2Proof/Syntax.lean ====
section
/-! DEFINITION. The syntax of the core: the ten commands (30_encoding.md R74) and the lines of the assembler
(30_encoding.md R79, R80). -/

namespace Sys2Proof

/-- The ten commands, one constructor per row of spec/opcode_table.json. An index field names an existing register whatever
its value (R72), so its type has exactly the registers there are. -/
inductive Instr where
  /-- `WRK i, w`: write key word `i` (R190). -/
  | wrk (idx : Fin 4) (w : Word)
  /-- `WRV i, w`: write data word `i` (R191). -/
  | wrv (idx : Fin 2) (w : Word)
  /-- `RDV i`: read data word `i` (R192). -/
  | rdv (idx : Fin 2)
  /-- `RDST`: read the status word (R193). -/
  | rdst
  /-- `RST`: reset the core by command (R194). -/
  | rst
  /-- `PUSHB b`: push one text byte into the splitter (R105). -/
  | pushb (b : Byte)
  /-- `EOT`: end of text (R106). -/
  | eot
  /-- `EMIT`: decode the pair to 8 output bytes and free it (R124). -/
  | emit
  /-- `ENC`: encrypt the pair in place (R146). -/
  | enc
  /-- `DEC`: decrypt the pair in place (R147). -/
  | dec
  deriving DecidableEq, Repr

/-- One line of assembler source (R79) or pseudo-instruction (R80), its numbers not yet checked against their fields. -/
inductive AsmLine where
  | wrk (idx w : Nat)
  | wrv (idx w : Nat)
  | rdv (idx : Nat)
  | rdst
  | rst
  | pushb (b : Nat)
  | eot
  | emit
  | enc
  | dec
  /-- `KEY w0, w1, w2, w3`: the whole key in index order. -/
  | key (w0 w1 w2 w3 : Nat)
  /-- `BLK w0, w1`: a block on the direct path. -/
  | blk (w0 w1 : Nat)
  /-- `PUSHS "t"`: one `PUSHB` per byte in text order. -/
  | pushs (t : List Nat)
  /-- `RAW op, imm`: the single command word `cat(op, imm)`, legal or not. -/
  | raw (op imm : Nat)
  deriving DecidableEq, Repr

end Sys2Proof
end

