-- ==== Sys2Proof/WellFormed.lean ====
section
/-! DEFINITION. What the assembler accepts (30_encoding.md R79): every number fits the field it goes to. A value of `Instr`
needs no check: each of its fields has the width of its bits, so every `Instr` is well formed (R72, R73, R78). -/

namespace Sys2Proof

/-- A key register index, 0 to 3 (R72). -/
def keyIndexFits (n : Nat) : Bool := n < 4

/-- A data register index, 0 or 1 (R72). -/
def dataIndexFits (n : Nat) : Bool := n < 2

/-- A byte, 0 to 255 (R73): a `PUSHB` operand, a byte of a `PUSHS` text, the `op` of `RAW`. -/
def byteFits (n : Nat) : Bool := n < 2 ^ 8

/-- A `u32` (R73): an operand word or the `imm` of `RAW`. -/
def wordFits (n : Nat) : Bool := n < 2 ^ 32

/-- The assembler "rejects an index or byte out of range" (R79); a word out of range is rejected too (log entry 12). -/
def AsmLine.wf : AsmLine → Bool
  | .wrk idx w => keyIndexFits idx && wordFits w
  | .wrv idx w => dataIndexFits idx && wordFits w
  | .rdv idx => dataIndexFits idx
  | .rdst => true
  | .rst => true
  | .pushb b => byteFits b
  | .eot => true
  | .emit => true
  | .enc => true
  | .dec => true
  | .key w0 w1 w2 w3 => wordFits w0 && wordFits w1 && wordFits w2 && wordFits w3
  | .blk w0 w1 => wordFits w0 && wordFits w1
  | .pushs t => t.all byteFits
  | .raw op imm => byteFits op && wordFits imm

end Sys2Proof
end

