-- ==== Sys2Proof/Decode.lean ====
section
/-! DEFINITION. Decoding of a command word, total on all 2^40 words (30_encoding.md R70 to R78), and the encoder written from
the same patterns (R74). The core has no memory and no byte stream of commands: a command word arrives whole (R53, R55). -/

namespace Sys2Proof

/-- Why a word is no command (R75): clause (a) or clause (b). -/
inductive DecodeReject where
  /-- `op` is none of the 15 assigned values. -/
  | unassignedOpcode
  /-- `op` is assigned but a must-be-zero part of `imm` is not zero. -/
  | nonzeroMustBeZero
  deriving DecidableEq, Repr

/-- The `op` field, bits 39:32 (R70). -/
def opField (c : CommandWord) : BitVec 8 := c.extractLsb' 32 8

/-- The `imm` field, bits 31:0 (R70). -/
def immField (c : CommandWord) : Word := c.extractLsb' 0 32

/-- `cat(op, imm)` (R70). -/
def catCommand (op : BitVec 8) (imm : Word) : CommandWord := op ++ imm

/-- The key register index `op[1:0]` (R72). -/
def keyIndexField (op : BitVec 8) : Fin 4 := (op.extractLsb' 0 2).toFin

/-- The data register index `op[0]` (R72). -/
def dataIndexField (op : BitVec 8) : Fin 2 := (op.extractLsb' 0 1).toFin

/-- The byte operand `imm[7:0]` of sub-format B (R71, R73). -/
def byteField (imm : Word) : Byte := imm.extractLsb' 0 8

/-- The must-be-zero bits `imm[31:8]` of sub-format B (R71). -/
def byteFormatMbz (imm : Word) : BitVec 24 := imm.extractLsb' 8 24

/-- The 15 assigned values of `op` (R75). -/
def assignedOpcodes : List (BitVec 8) :=
  [0x10#8, 0x11#8, 0x12#8, 0x13#8, 0x20#8, 0x21#8, 0x28#8, 0x29#8, 0x30#8, 0x3F#8, 0x40#8, 0x41#8, 0x50#8, 0x60#8, 0x61#8]

/-- The decoding procedure of R78, test by test; a word it finds illegal is rejected under the clause of R75 that holds. -/
def decode (c : CommandWord) : Except DecodeReject Instr :=
  let op := opField c
  let imm := immField c
  if op.extractLsb' 2 6 = 0b000100#6 then .ok (.wrk (keyIndexField op) imm)
  else if op.extractLsb' 1 7 = 0b0010000#7 then .ok (.wrv (dataIndexField op) imm)
  else if op.extractLsb' 1 7 = 0b0010100#7 ∧ imm = 0#32 then .ok (.rdv (dataIndexField op))
  else if op = 0x30#8 ∧ imm = 0#32 then .ok .rdst
  else if op = 0x3F#8 ∧ imm = 0#32 then .ok .rst
  else if op = 0x40#8 ∧ byteFormatMbz imm = 0#24 then .ok (.pushb (byteField imm))
  else if op = 0x41#8 ∧ imm = 0#32 then .ok .eot
  else if op = 0x50#8 ∧ imm = 0#32 then .ok .emit
  else if op = 0x60#8 ∧ imm = 0#32 then .ok .enc
  else if op = 0x61#8 ∧ imm = 0#32 then .ok .dec
  else if op ∈ assignedOpcodes then .error .nonzeroMustBeZero
  else .error .unassignedOpcode

/-- The `op` byte of a command (R74). -/
def encodeOp : Instr → BitVec 8
  | .wrk idx _ => 0b000100#6 ++ BitVec.ofFin (w := 2) idx
  | .wrv idx _ => 0b0010000#7 ++ BitVec.ofFin (w := 1) idx
  | .rdv idx => 0b0010100#7 ++ BitVec.ofFin (w := 1) idx
  | .rdst => 0x30#8
  | .rst => 0x3F#8
  | .pushb _ => 0x40#8
  | .eot => 0x41#8
  | .emit => 0x50#8
  | .enc => 0x60#8
  | .dec => 0x61#8

/-- The `imm` of a command: the operand word (W), the operand byte under zeros (B), or zero (N) (R71, R74). -/
def encodeImm : Instr → Word
  | .wrk _ w => w
  | .wrv _ w => w
  | .rdv _ => 0#32
  | .rdst => 0#32
  | .rst => 0#32
  | .pushb b => 0#24 ++ b
  | .eot => 0#32
  | .emit => 0#32
  | .enc => 0#32
  | .dec => 0#32

/-- The command word of a command (R70, R74). -/
def encode (i : Instr) : CommandWord := catCommand (encodeOp i) (encodeImm i)

/-- The mnemonic of a command (R74). -/
def mnemonic : Instr → String
  | .wrk _ _ => "WRK"
  | .wrv _ _ => "WRV"
  | .rdv _ => "RDV"
  | .rdst => "RDST"
  | .rst => "RST"
  | .pushb _ => "PUSHB"
  | .eot => "EOT"
  | .emit => "EMIT"
  | .enc => "ENC"
  | .dec => "DEC"

/-- The `mask` column of the opcode map, the row of a command (R74). -/
def tableMask : Instr → CommandWord
  | .wrk _ _ => 0xFC00000000#40
  | .wrv _ _ => 0xFE00000000#40
  | .rdv _ => 0xFEFFFFFFFF#40
  | .rdst => 0xFFFFFFFFFF#40
  | .rst => 0xFFFFFFFFFF#40
  | .pushb _ => 0xFFFFFFFF00#40
  | .eot => 0xFFFFFFFFFF#40
  | .emit => 0xFFFFFFFFFF#40
  | .enc => 0xFFFFFFFFFF#40
  | .dec => 0xFFFFFFFFFF#40

/-- The `match` column of the opcode map, the row of a command (R74). -/
def tableMatch : Instr → CommandWord
  | .wrk _ _ => 0x1000000000#40
  | .wrv _ _ => 0x2000000000#40
  | .rdv _ => 0x2800000000#40
  | .rdst => 0x3000000000#40
  | .rst => 0x3F00000000#40
  | .pushb _ => 0x4000000000#40
  | .eot => 0x4100000000#40
  | .emit => 0x5000000000#40
  | .enc => 0x6000000000#40
  | .dec => 0x6100000000#40

/-- "A command word selects the row whose `(c & mask) = match`" (R74). -/
abbrev selectsRow (c : CommandWord) (i : Instr) : Prop := c &&& tableMask i = tableMatch i

/-- A word that R75 calls illegal: (a) `op` is unassigned, or (b) a must-be-zero part of `imm` is not zero. -/
abbrev illegalWord (c : CommandWord) : Prop :=
  opField c ∉ assignedOpcodes
    ∨ (opField c ∈ [0x28#8, 0x29#8, 0x30#8, 0x3F#8, 0x41#8, 0x50#8, 0x60#8, 0x61#8] ∧ immField c ≠ 0#32)
    ∨ (opField c = 0x40#8 ∧ byteFormatMbz (immField c) ≠ 0#24)

/-- The command words an accepted assembler line stands for, `none` for a line the assembler rejects (R79, R80). -/
def assemble (l : AsmLine) : Option (List CommandWord) :=
  if l.wf then
    some <| match l with
      | .wrk idx w => [encode (.wrk (Fin.ofNat 4 idx) (BitVec.ofNat 32 w))]
      | .wrv idx w => [encode (.wrv (Fin.ofNat 2 idx) (BitVec.ofNat 32 w))]
      | .rdv idx => [encode (.rdv (Fin.ofNat 2 idx))]
      | .rdst => [encode .rdst]
      | .rst => [encode .rst]
      | .pushb b => [encode (.pushb (BitVec.ofNat 8 b))]
      | .eot => [encode .eot]
      | .emit => [encode .emit]
      | .enc => [encode .enc]
      | .dec => [encode .dec]
      | .key w0 w1 w2 w3 =>
        [encode (.wrk 0 (BitVec.ofNat 32 w0)), encode (.wrk 1 (BitVec.ofNat 32 w1)),
          encode (.wrk 2 (BitVec.ofNat 32 w2)), encode (.wrk 3 (BitVec.ofNat 32 w3))]
      | .blk w0 w1 => [encode (.wrv 0 (BitVec.ofNat 32 w0)), encode (.wrv 1 (BitVec.ofNat 32 w1))]
      | .pushs t => t.map fun b => encode (.pushb (BitVec.ofNat 8 b))
      | .raw op imm => [catCommand (BitVec.ofNat 8 op) (BitVec.ofNat 32 imm)]
  else none

/-- The command word whose low `nbits` bits are those of `w` and whose other bits are zero (log entry 11). -/
def tableWord (nbits w : Nat) : CommandWord := BitVec.ofNat 40 (w % 2 ^ nbits)

/-- The instruction this decoder reads from the word `w` of `nbits` bits, numbered as spec/opcode_table.json numbers them. -/
def decodeTableWord (nbits w : Nat) : Option Instr :=
  match decode (tableWord nbits w) with
  | .ok i => some i
  | .error _ => none

end Sys2Proof
end

