-- ==== Sys2Proof/Config.lean ====
section
/-! DEFINITION. The hardwired constants of the core (00_scope.md R6, 10_state.md R29), and the free values of the hidden
registers after a reset (10_state.md R28, R32). No parameter of the spec is left open (R7). The chunk size
`S = 4` is the shape of the type `Chunk`. -/

namespace Sys2Proof.Config

/-- `DELTA`, the constant added or subtracted each round (R6, R29). -/
def delta : Word := 0x9E3779B9#32

/-- `DSUM`, the sum `Decrypt` starts from (R6, R29, R145). -/
def dsum : Word := 0xC6EF3720#32

/-- `FILL`, the filler byte `.` (R6, R29). -/
def fill : Byte := 0x2E#8

/-- `NR`, the number of rounds of one `Encrypt` or `Decrypt` (R6, R29, R152). -/
def rounds : Nat := 32

/-- What `SUM` holds after the `n`-th reset: unspecified by R32, so a free value with no body (log entry 4). -/
opaque freeSum : Nat → Word

/-- What `RND` holds after the `n`-th reset: unspecified by R32 within the 0 to 32 of R28, so a free value with no body
(log entry 4). -/
opaque freeRnd : Nat → Fin 33

end Sys2Proof.Config
end

