-- ==== Sys2Proof/Machine/Codec.lean ====
section
/-! DEFINITION. The functions of the WordCodec (41_wordcodec.md R120 to R125). They are total: no failure path exists
(60_exceptions.md R215). -/

namespace Sys2Proof.Machine

/-- The four bytes of a chunk in text order. -/
def chunkBytes (c : Chunk) : List Byte := [c.b0, c.b1, c.b2, c.b3]

/-- `Encode(c) = cat(b0, b1, b2, b3)`: byte 0 in bits 31:24 (R120, R52). -/
def encodeChunk (c : Chunk) : Word := c.b0 ++ c.b1 ++ c.b2 ++ c.b3

/-- `Decode(w) = [w[31:24], w[23:16], w[15:8], w[7:0]]` (R121). -/
def decodeWord (w : Word) : Chunk where
  b0 := w.extractLsb' 24 8
  b1 := w.extractLsb' 16 8
  b2 := w.extractLsb' 8 8
  b3 := w.extractLsb' 0 8

/-- The bytes of a pair of words on the output: those of `v0` before those of `v1` (R124, 43_pipeline.md R177). -/
def pairBytes (v0 v1 : Word) : List Byte := chunkBytes (decodeWord v0) ++ chunkBytes (decodeWord v1)

end Sys2Proof.Machine
end

