-- ==== Sys2Proof/Machine/State.lean ====
section
/-! DEFINITION. The state of the core as plain data (10_state.md R20, R28, R30), what the host can do to it
(20_memory.md R61, 70_reset_and_hazards.md R240, R246), its reset state (10_state.md R32) and the reasons a step can stop. -/

namespace Sys2Proof.Machine

/-- One response: the 4-bit status and the 32-bit data that answer one command (30_encoding.md R77). -/
structure Response where
  st : BitVec 4
  data : Word
  deriving DecidableEq, Repr

/-- What the host and the world around the core do next (log entries 1, 5, 6). -/
inductive HostEvent where
  /-- The host presents a command word, and the consumer of `OUT` takes every byte offered (R55, R61, premise of R245). -/
  | command (c : CommandWord)
  /-- The reset input is asserted between commands (R240). -/
  | reset
  /-- The host presents a command word and the reset input is asserted while it is being performed; if it is an `EMIT`, the
  consumer has taken `taken` of its 8 bytes by then (R246). -/
  | resetDuring (c : CommandWord) (taken : Fin 9)
  /-- The host presents `EMIT`, and after `taken` bytes the consumer never takes another (R57, R245). -/
  | emitStalled (taken : Fin 8)
  deriving DecidableEq, Repr

/-- The whole state. -/
structure State where
  /-- `K[0..3]`, the key registers (R21). -/
  k : Key
  /-- `KV[3:0]`, the key-valid bits (R22). -/
  kv : BitVec 4
  /-- `V[0..1]`, the data registers (R23). -/
  v : Vector Word 2
  /-- `CB[0..2]`, the chunk buffer (R24). -/
  cb : Vector Byte 3
  /-- `CN`, how many bytes wait in `CB` (R24). -/
  cn : Fin 4
  /-- `SLOT`, how many chunks have been delivered into the pair; the value 3 never occurs (R25, log entry 8). -/
  slot : Fin 3
  /-- `ERR[2:0]`, the sticky error bits (R26). -/
  err : BitVec 3
  /-- `SUM`, hidden (R28). -/
  sum : Word
  /-- `RND`, hidden, 0 to 32 (R28). -/
  rnd : Fin 33
  /-- `OUT`, the bytes emitted so far: an observation (R30). -/
  out : List Byte
  /-- `RESP`, the responses given so far: an observation (R30). -/
  resp : List Response
  /-- The model's own: what the host does from here on, first event first (log entry 1). -/
  inputs : List HostEvent
  /-- The model's own: how many free values have been drawn (log entry 4). -/
  freeTick : Nat
  deriving DecidableEq, Repr

/-- The state right after reset: every piece of architectural state is zero (R32). The hidden registers are unspecified there
and hold 0 here by DESIGN CHOICE (log entry 3); nothing has been emitted, answered or presented yet (log entries 1, 7). -/
def State.reset : State where
  k := Vector.replicate 4 0#32
  kv := 0#4
  v := Vector.replicate 2 0#32
  cb := Vector.replicate 3 0#8
  cn := 0
  slot := 0
  err := 0#3
  sum := 0#32
  rnd := 0
  out := []
  resp := []
  inputs := []
  freeTick := 0

/-- Why the machine stops. -/
inductive Fault where
  /-- Raised by `perform` of the host event `emitStalled` only: an `EMIT` whose output bytes are never taken never completes
  and the core accepts no further command (R57, R245; 93_implementation_defined.md U13 `stuck`). `taken` bytes had left.
  SAFE: the model stops where the hardware waits for ever (log entry 6). -/
  | outputNeverTaken (taken : Nat)
  deriving DecidableEq, Repr

/-- Why a step is refused. -/
inductive Refusal where
  /-- Raised by `exec` for an instruction that has no meaning yet; no arm of `exec` raises it now. SAFE: no next state. -/
  | notModelled (mnemonic : String)
  deriving DecidableEq, Repr

/-- What a meaning, and a step, answers. -/
abbrev Result := Host.Outcome State Fault Refusal

end Sys2Proof.Machine
end

