-- ==== Sys2Proof/Machine/Flags.lean ====
section
/-! DEFINITION. The key-valid bits, the sticky error bits and the status word (10_state.md R22, R26, R33). There is no
arithmetic flag (R26). -/

namespace Sys2Proof.Machine

/-- The errors the core can raise, all of them (60_exceptions.md R210). -/
inductive CoreError where
  | illegal
  | noKey
  | pairFull
  deriving DecidableEq, Repr

/-- The response status of an error (60_exceptions.md R210, 30_encoding.md R77); 0 is OK. -/
def errorCode : CoreError → BitVec 4
  | .illegal => 1#4
  | .noKey => 2#4
  | .pairFull => 3#4

/-- The bit of `ERR` that records an error, alone set (60_exceptions.md R210). -/
def errorBit : CoreError → BitVec 3
  | .illegal => 0b001#3
  | .noKey => 0b010#3
  | .pairFull => 0b100#3

/-- `ERR[n-1] <- 1`: the bit is sticky, the others stay (10_state.md R26, 60_exceptions.md R214). -/
def recordError (e : CoreError) (s : State) : State := { s with err := s.err ||| errorBit e }

/-- `KV[i] <- 1` (10_state.md R22, 44_host_access.md R190). -/
def markKeyValid (idx : Fin 4) (s : State) : State := { s with kv := s.kv ||| BitVec.twoPow 4 idx }

/-- `KV = 0b1111`: all four key words have been written since the last reset (10_state.md R22). -/
abbrev keyLoaded (s : State) : Prop := s.kv = 0b1111#4

/-- `SLOT[1:0]` as a word, `zext_32(SLOT)` (40_blocksplitter.md R105). -/
def slotWord (s : State) : Word := BitVec.ofNat 32 s.slot

/-- `STATUS = cat(zext_21(0), ERR, KV, SLOT, CN)` (10_state.md R33). -/
def statusWord (s : State) : Word :=
  0#21 ++ s.err ++ s.kv ++ BitVec.ofNat 2 s.slot ++ BitVec.ofNat 2 s.cn

end Sys2Proof.Machine
end

