-- ==== Sys2Proof/Machine/Operands.lean ====
section
/-! DEFINITION. Reading and writing the indexed registers (20_memory.md R51): `K` and `V` by an index from the opcode
(30_encoding.md R72), `CB` at the index `CN` (40_blocksplitter.md R105). An index has the type of the registers there are, so
none is out of range (R54, R72). -/

namespace Sys2Proof.Machine

/-- `K[i] <- w` (10_state.md R21). -/
def writeKey (idx : Fin 4) (w : Word) (s : State) : State := { s with k := s.k.set idx w }

/-- `V[i] <- w` (10_state.md R23). -/
def writeData (idx : Fin 2) (w : Word) (s : State) : State := { s with v := s.v.set idx w }

/-- `V[i]` (10_state.md R23). -/
def readData (idx : Fin 2) (s : State) : Word := s.v[idx]

/-- `V[0]`, `V[1]` written together (42_teacipher.md R146, R154). -/
def writePair (v0 v1 : Word) (s : State) : State := { s with v := #v[v0, v1] }

/-- `CB[CN] <- b; CN <- CN + 1`, for `CN < 3`; a fourth byte is never stored (10_state.md R24, 40_blocksplitter.md R105). -/
def storeByte (b : Byte) (s : State) : State :=
  match s.cn with
  | 0 => { s with cb := s.cb.set 0 b, cn := 1 }
  | 1 => { s with cb := s.cb.set 1 b, cn := 2 }
  | 2 => { s with cb := s.cb.set 2 b, cn := 3 }
  | 3 => s

/-- The bytes waiting in the chunk buffer, `[CB[0], .., CB[CN-1]]` (10_state.md R24). -/
def pending (s : State) : List Byte := s.cb.toList.take s.cn

/-- The chunk that the byte `b` completes, `[CB[0], CB[1], CB[2], b]` (40_blocksplitter.md R105). -/
def completedChunk (b : Byte) (s : State) : Chunk := ⟨s.cb[0], s.cb[1], s.cb[2], b⟩

/-- `CN <- 0`; the bytes of `CB` stay where they are (10_state.md R24, log entry 9). -/
def clearCount (s : State) : State := { s with cn := 0 }

/-- `SLOT <- 0` (41_wordcodec.md R124). -/
def freePair (s : State) : State := { s with slot := 0 }

end Sys2Proof.Machine
end

