-- ==== Sys2Proof/Machine/Ops.lean ====
section
/-! DEFINITION. The operations the commands share: `Resp`, `Out`, `raise`, `Deliver` (00_scope.md R12) and reset
(10_state.md R32). `raise` is the core's taking of an exception; nothing returns from one (60_exceptions.md R219). -/

namespace Sys2Proof.Machine

/-- One response appended to `RESP` (00_scope.md R12, 20_memory.md R57). -/
def addResponse (st : BitVec 4) (data : Word) (s : State) : State := { s with resp := s.resp ++ [⟨st, data⟩] }

/-- `Out` of each byte in turn: `OUT` only grows (00_scope.md R12, 41_wordcodec.md R124). -/
def addOutput (bs : List Byte) (s : State) : State := { s with out := s.out ++ bs }

/-- `Resp(OK, data)`: the command ends and its status is 0 (00_scope.md R12, 30_encoding.md R77). -/
def respondOk (data : Word) (s : State) : Result := .next (addResponse 0#4 data s)

/-- `raise E`: `ERR[n-1] <- 1; Resp(n, 0)`, and nothing else (60_exceptions.md R214). -/
def raise (e : CoreError) (s : State) : Result := .next (addResponse (errorCode e) 0#32 (recordError e s))

/-- `Deliver(c)`: `V[SLOT] <- Encode(c); SLOT <- SLOT + 1` (40_blocksplitter.md R104). It is used only when `SLOT < 2`; on a
full pair, where no rule calls it, it does nothing (log entry 8). -/
def deliver (c : Chunk) (s : State) : State :=
  match s.slot with
  | 0 => { writeData 0 (encodeChunk c) s with slot := 1 }
  | 1 => { writeData 1 (encodeChunk c) s with slot := 2 }
  | 2 => s

/-- Reset of the core, by `RST` or by the reset input: every piece of architectural state is zero; `OUT` and `RESP` stay; the
hidden `SUM` and `RND` are unspecified and take fresh free values (10_state.md R30, R32, 70_reset_and_hazards.md R240; log
entry 4). -/
def resetCore (s : State) : State :=
  { s with
    k := Vector.replicate 4 0#32
    kv := 0#4
    v := Vector.replicate 2 0#32
    cb := Vector.replicate 3 0#8
    cn := 0
    slot := 0
    err := 0#3
    sum := Config.freeSum s.freeTick
    rnd := Config.freeRnd s.freeTick
    freeTick := s.freeTick + 1 }

end Sys2Proof.Machine
end

