-- ==== Sys2Proof/Machine/Cipher.lean ====
section
/-! DEFINITION. The TeaCipher: the mixing function, the rounds, `Encrypt` and `Decrypt`, the round engine, and the commands
`ENC` and `DEC` (42_teacipher.md R140 to R155). -/

namespace Sys2Proof.Machine

/-- The CipherState, "a transient (v0, v1, sum) triple" (10_state.md R28). -/
structure CipherState where
  v0 : Word
  v1 : Word
  sum : Word
  deriving DecidableEq, Repr

/-- `F(x, s, ka, kb) = ((x << 4) + ka) ^ (x + s) ^ ((x >> 5) + kb)` (R140). -/
def mix (x s ka kb : Word) : Word := ((x <<< 4) + ka) ^^^ (x + s) ^^^ ((x >>> 5) + kb)

/-- One encrypt round: `sum` first, then `v0` from the old `v1`, then `v1` from the new `v0` (R141). -/
def encRound (k : Key) (r : CipherState) : CipherState :=
  let sum := r.sum + Config.delta
  let v0 := r.v0 + mix r.v1 sum k[0] k[1]
  let v1 := r.v1 + mix v0 sum k[2] k[3]
  ⟨v0, v1, sum⟩

/-- One decrypt round: `v1` from the old `v0`, then `v0` from the new `v1`, then `sum` (R142). -/
def decRound (k : Key) (r : CipherState) : CipherState :=
  let v1 := r.v1 - mix r.v0 r.sum k[2] k[3]
  let v0 := r.v0 - mix v1 r.sum k[0] k[1]
  ⟨v0, v1, r.sum - Config.delta⟩

/-- `n` rounds in order. -/
def runRounds (round : CipherState → CipherState) : Nat → CipherState → CipherState
  | 0, r => r
  | n + 1, r => runRounds round n (round r)

/-- The CipherState after the whole loop of `Encrypt`: `sum = 0`, exactly 32 rounds (R143). -/
def encryptLoop (k : Key) (v0 v1 : Word) : CipherState := runRounds (encRound k) Config.rounds ⟨v0, v1, 0#32⟩

/-- The CipherState after the whole loop of `Decrypt`: `sum = 0xC6EF3720`, exactly 32 rounds (R145). -/
def decryptLoop (k : Key) (v0 v1 : Word) : CipherState := runRounds (decRound k) Config.rounds ⟨v0, v1, Config.dsum⟩

/-- `Encrypt(v0, v1, k0, k1, k2, k3)`: the pair after the 32nd round; the sum is dropped (R143). -/
def encrypt (v0 v1 : Word) (k : Key) : Word × Word := ((encryptLoop k v0 v1).v0, (encryptLoop k v0 v1).v1)

/-- `Decrypt(v0, v1, k0, k1, k2, k3)` (R145). -/
def decrypt (v0 v1 : Word) (k : Key) : Word × Word := ((decryptLoop k v0 v1).v0, (decryptLoop k v0 v1).v1)

/-- The registers after a completed loop: the pair, `SUM`, and `RND = 32` (10_state.md R28; log entry 13). -/
def writeCipherState (r : CipherState) (s : State) : State :=
  { writePair r.v0 r.v1 s with sum := r.sum, rnd := Fin.ofNat 33 Config.rounds }

/-- `ENC` (R146). -/
def execEnc (s : State) : Result :=
  if keyLoaded s then respondOk 0#32 (writeCipherState (encryptLoop s.k s.v[0] s.v[1]) s)
  else raise .noKey s

/-- `DEC` (R147). -/
def execDec (s : State) : Result :=
  if keyLoaded s then respondOk 0#32 (writeCipherState (decryptLoop s.k s.v[0] s.v[1]) s)
  else raise .noKey s

/-- The two directions of the cipher, and of the stream path (43_pipeline.md R172). -/
inductive Direction where
  | encryption
  | decryption
  deriving DecidableEq, Repr

/-- The round engine is started: `SUM` set for the direction, `RND <- 0` (R153). -/
def engineStart : Direction → State → State
  | .encryption, s => { s with sum := 0#32, rnd := 0 }
  | .decryption, s => { s with sum := Config.dsum, rnd := 0 }

/-- One step of the round engine on `(V[0], V[1], SUM, RND)`; it stops when `RND = 32` (R152, R153). -/
def engineStep (d : Direction) (s : State) : State :=
  if s.rnd.val < Config.rounds then
    let r : CipherState := ⟨s.v[0], s.v[1], s.sum⟩
    let r' := match d with
      | .encryption => encRound s.k r
      | .decryption => decRound s.k r
    { writePair r'.v0 r'.v1 s with sum := r'.sum, rnd := s.rnd + 1 }
  else s

/-- `n` steps of the round engine. -/
def engineRun (d : Direction) : Nat → State → State
  | 0, s => s
  | n + 1, s => engineRun d n (engineStep d s)

end Sys2Proof.Machine
end

