-- ==== Sys2Proof/Machine/Emit.lean ====
section
/-! DEFINITION. The WordCodec's command `EMIT` (41_wordcodec.md R124). -/

namespace Sys2Proof.Machine

/-- `EMIT`: the eight bytes of the pair on `OUT`, `SLOT <- 0`, `Resp(OK, 0)`, the consumer taking every byte (R124; log entry
6). It looks neither at `SLOT` nor at who wrote `V` last. -/
def execEmit (s : State) : Result :=
  respondOk 0#32 (freePair (addOutput (pairBytes s.v[0] s.v[1]) s))

end Sys2Proof.Machine
end

