-- ==== Sys2Proof/Machine/HostAccess.lean ====
section
/-! DEFINITION. The host access commands `WRK`, `WRV`, `RDV`, `RDST`, `RST` (44_host_access.md R190 to R194). -/

namespace Sys2Proof.Machine

/-- `WRK i, w`: `K[i] <- w; KV[i] <- 1; Resp(OK, 0)` (R190). -/
def execWrk (idx : Fin 4) (w : Word) (s : State) : Result :=
  respondOk 0#32 (markKeyValid idx (writeKey idx w s))

/-- `WRV i, w`: `V[i] <- w; Resp(OK, 0)` (R191). -/
def execWrv (idx : Fin 2) (w : Word) (s : State) : Result :=
  respondOk 0#32 (writeData idx w s)

/-- `RDV i`: `Resp(OK, V[i])` (R192). -/
def execRdv (idx : Fin 2) (s : State) : Result :=
  respondOk (readData idx s) s

/-- `RDST`: `Resp(OK, STATUS)`; reading clears nothing (R193). -/
def execRdst (s : State) : Result :=
  respondOk (statusWord s) s

/-- `RST`: the reset state, then `Resp(OK, 0)` (R194). -/
def execRst (s : State) : Result :=
  respondOk 0#32 (resetCore s)

end Sys2Proof.Machine
end

