-- ==== Sys2Proof/Machine/Splitter.lean ====
section
/-! DEFINITION. The BlockSplitter: the functions `Pad` and `Split` (40_blocksplitter.md R100 to R102) and the commands `PUSHB`
and `EOT` (R105, R106). -/

namespace Sys2Proof.Machine

/-- `Pad(p) = p ++ rep(0x2E, 4 - len(p))`, for at most four bytes (R101). Of a longer list, which no rule gives it, it takes the
first four bytes (log entry 10). -/
def pad (p : List Byte) : Chunk :=
  ⟨p.getD 0 Config.fill, p.getD 1 Config.fill, p.getD 2 Config.fill, p.getD 3 Config.fill⟩

/-- The synthetic filler chunk `"...."`, `Pad([])` (R101, 43_pipeline.md R170). -/
def fillerChunk : Chunk := pad []

/-- `Split(t)`: the text in chunks of four bytes, left to right, a short last chunk padded (R100). -/
def split : List Byte → List Chunk
  | b0 :: b1 :: b2 :: b3 :: t => ⟨b0, b1, b2, b3⟩ :: split t
  | [] => []
  | t => [pad t]

/-- `PUSHB b` (R105). -/
def execPushb (b : Byte) (s : State) : Result :=
  if s.slot = 2 then raise .pairFull s
  else
    let s' := if s.cn < 3 then storeByte b s else clearCount (deliver (completedChunk b s) s)
    respondOk (slotWord s') s'

/-- Step 1 of `EOT`: the final short chunk, padded and delivered (R106). -/
def flushPending (s : State) : State :=
  if 0 < s.cn then clearCount (deliver (pad (pending s)) s) else s

/-- Step 2 of `EOT`: the odd trailing block completed with the synthetic filler chunk (R106). -/
def completePair (s : State) : State :=
  if s.slot = 1 then deliver fillerChunk s else s

/-- `EOT` (R106): step 2 tests `SLOT` as step 1 left it. -/
def execEot (s : State) : Result :=
  let s' := if s.slot < 2 then completePair (flushPending s) else s
  respondOk (slotWord s') s'

end Sys2Proof.Machine
end

