-- ==== Sys2Proof/Machine/Dispatch.lean ====
section
/-! DEFINITION. The meaning of every command, one arm a constructor (30_encoding.md R74). -/

namespace Sys2Proof.Machine

def exec (i : Instr) (s : State) : Host.Outcome State Fault Refusal :=
  match i with
  | .wrk idx w => Sys2Proof.Machine.execWrk idx w s
  | .wrv idx w => Sys2Proof.Machine.execWrv idx w s
  | .rdv idx => Sys2Proof.Machine.execRdv idx s
  | .rdst => Sys2Proof.Machine.execRdst s
  | .rst => Sys2Proof.Machine.execRst s
  | .pushb b => Sys2Proof.Machine.execPushb b s
  | .eot => Sys2Proof.Machine.execEot s
  | .emit => Sys2Proof.Machine.execEmit s
  | .enc => Sys2Proof.Machine.execEnc s
  | .dec => Sys2Proof.Machine.execDec s

end Sys2Proof.Machine
end

