-- ==== Sys2Proof/Machine/Perform.lean ====
section
/-! DEFINITION. Performing what the host does next: a command word from decoding to its response (20_memory.md R55,
60_exceptions.md R218), the reset input (70_reset_and_hazards.md R240, R246), an `EMIT` whose bytes are never taken (R245). -/

namespace Sys2Proof.Machine

/-- One command word, performed to completion: decoding alone decides ILLEGAL, before any state is looked at (30_encoding.md
R75, R78; 60_exceptions.md R211, R218). -/
def performCommand (c : CommandWord) (s : State) : Result :=
  match decode c with
  | .ok i => exec i s
  | .error _ => raise .illegal s

/-- The bytes of an abandoned command that the consumer had already taken: a prefix of the eight of an `EMIT`, none of any
other command (R246; log entry 5). -/
def takenBytes (c : CommandWord) (taken : Fin 9) (s : State) : List Byte :=
  match decode c with
  | .ok .emit => (pairBytes s.v[0] s.v[1]).take taken
  | _ => []

/-- The reset input asserted while a command is being performed: the command is abandoned without a response, the state becomes
the reset state, and bytes already taken stay in `OUT` (R246). -/
def abandonCommand (c : CommandWord) (taken : Fin 9) (s : State) : State :=
  resetCore (addOutput (takenBytes c taken s) s)

/-- One thing the host does. -/
def perform (e : HostEvent) (s : State) : Result :=
  match e with
  | .command c => performCommand c s
  | .reset => .next (resetCore s)
  | .resetDuring c taken => .next (abandonCommand c taken s)
  | .emitStalled taken => .fault (.outputNeverTaken taken)

/-- One step: the host's next event is taken from `inputs` and performed; with none, the core idles and holds its registers
(10_state.md R27; 60_exceptions.md R222; 70_reset_and_hazards.md R240; log entries 1, 2). -/
def advance (s : State) : Result :=
  match s.inputs with
  | [] => .next s
  | e :: rest => perform e { s with inputs := rest }

end Sys2Proof.Machine
end

