-- ==== Sys2Proof/Machine/Step.lean ====
section
/-! DEFINITION. The step of the machine, and a state whose next step performs a given command word. -/

namespace Sys2Proof.Machine

/-- One step (Perform.lean's `advance`). -/
def step (s : State) : Host.Outcome State Fault Refusal := advance s

/-- `s` with the word `w` of `nbits` bits as the host's next command (log entries 2, 11). -/
def State.withFetchWord (s : State) (nbits w : Nat) : State :=
  { s with inputs := .command (tableWord nbits w) :: s.inputs }

end Sys2Proof.Machine
end

