-- ==== Sys2Proof/Machine/Assembler.lean ====
section
/-! DEFINITION. The text form of the assembler (30_encoding.md R79, R80): one command per line, the mnemonic in capitals, then its
operands separated by commas; decimal and `0x` numbers, a byte also as a character in single quotes, `;` before a comment. What
R79 leaves open of the text form is in log entry 12. -/

namespace Sys2Proof.Machine

/-- The single quote around a character. -/
def singleQuote : Char := Char.ofNat 39

/-- The double quote around the text of `PUSHS`. -/
def doubleQuote : Char := Char.ofNat 34

/-- White space between the parts of a line. -/
def isBlank (c : Char) : Bool := c == Char.ofNat 32 || c == Char.ofNat 9

/-- A character of a line, and whether it stands inside quotes, where `;`, `,` and white space are plain characters. -/
def markQuoted : Bool → List Char → List (Char × Bool)
  | _, [] => []
  | true, c :: cs => if c == doubleQuote then (c, false) :: markQuoted false cs else (c, true) :: markQuoted true cs
  | false, q :: c :: q' :: cs =>
    if q == singleQuote && q' == singleQuote then (q, false) :: (c, true) :: (q', false) :: markQuoted false cs
    else (q, false) :: markQuoted (q == doubleQuote) (c :: q' :: cs)
  | false, c :: cs => (c, false) :: markQuoted (c == doubleQuote) cs

/-- Text after `;` is a comment (R79). -/
def dropComment (cs : List (Char × Bool)) : List (Char × Bool) := cs.takeWhile fun c => !(c.1 == ';' && !c.2)

/-- White space at both ends is no part of an operand. -/
def trimBlanks (cs : List (Char × Bool)) : List (Char × Bool) :=
  ((cs.dropWhile fun c => isBlank c.1 && !c.2).reverse.dropWhile fun c => isBlank c.1 && !c.2).reverse

/-- The operands of a line, separated by commas (R79). -/
def splitOperands : List (Char × Bool) → List (Char × Bool) → List (List (Char × Bool))
  | acc, [] => [acc.reverse]
  | acc, c :: cs => if c.1 == ',' && !c.2 then acc.reverse :: splitOperands [] cs else splitOperands (c :: acc) cs

/-- The value of a digit in a base up to 16. -/
def digitValue (base : Nat) (c : Char) : Option Nat :=
  let n := c.toNat
  let d := if 48 ≤ n && n ≤ 57 then some (n - 48) else if 65 ≤ n && n ≤ 70 then some (n - 55)
    else if 97 ≤ n && n ≤ 102 then some (n - 87) else none
  d.filter fun k => k < base

/-- A nonempty run of digits as a number, `acc` read so far. -/
def digitsValue (base : Nat) : Nat → List Char → Option Nat
  | acc, [] => some acc
  | acc, c :: cs => (digitValue base c).bind fun d => digitsValue base (acc * base + d) cs

/-- A number is decimal, or hexadecimal with `0x` (R79). -/
def parseNumber (cs : List Char) : Option Nat :=
  match cs with
  | [] => none
  | '0' :: 'x' :: [] => none
  | '0' :: 'x' :: ds => digitsValue 16 0 ds
  | ds => digitsValue 10 0 ds

/-- The ASCII code of a character (00_scope.md R8). -/
def asciiCode (c : Char) : Option Nat := if c.toNat < 128 then some c.toNat else none

/-- The byte operand of `PUSHB`: a number, or a character in single quotes (R79). -/
def parseByte (cs : List Char) : Option Nat :=
  match cs with
  | [q, c, q'] => if q == singleQuote && q' == singleQuote then asciiCode c else parseNumber cs
  | _ => parseNumber cs

/-- The text of `PUSHS`, between double quotes (R80). -/
def parseText (cs : List Char) : Option (List Nat) :=
  match cs with
  | [] => none
  | q :: rest =>
    match rest.reverse with
    | [] => none
    | q' :: body => if q == doubleQuote && q' == doubleQuote && !body.contains doubleQuote then body.reverse.mapM asciiCode else none

/-- The line that a mnemonic and its operands make, in the operand order of R74 and R80. DESIGN CHOICE: R79's "a byte may also be
a character in single quotes" is read as speaking of the text byte of `PUSHB`, so the 8-bit `op` of `RAW` is written as a number
only, like the other operands (log entry 12). -/
def parseCommand (name : List Char) (ops : List (List Char)) : Option AsmLine :=
  match name, ops with
  | ['W', 'R', 'K'], [i, w] => (parseNumber i).bind fun i => (parseNumber w).map fun w => .wrk i w
  | ['W', 'R', 'V'], [i, w] => (parseNumber i).bind fun i => (parseNumber w).map fun w => .wrv i w
  | ['R', 'D', 'V'], [i] => (parseNumber i).map .rdv
  | ['R', 'D', 'S', 'T'], [] => some .rdst
  | ['R', 'S', 'T'], [] => some .rst
  | ['P', 'U', 'S', 'H', 'B'], [b] => (parseByte b).map .pushb
  | ['E', 'O', 'T'], [] => some .eot
  | ['E', 'M', 'I', 'T'], [] => some .emit
  | ['E', 'N', 'C'], [] => some .enc
  | ['D', 'E', 'C'], [] => some .dec
  | ['K', 'E', 'Y'], [a, b, c, d] =>
    (parseNumber a).bind fun a => (parseNumber b).bind fun b => (parseNumber c).bind fun c =>
      (parseNumber d).map fun d => .key a b c d
  | ['B', 'L', 'K'], [a, b] => (parseNumber a).bind fun a => (parseNumber b).map fun b => .blk a b
  | ['P', 'U', 'S', 'H', 'S'], [t] => (parseText t).map .pushs
  | ['R', 'A', 'W'], [o, w] => (parseNumber o).bind fun o => (parseNumber w).map fun w => .raw o w
  | _, _ => none

/-- One source line: `some none` for a line with no command, blank or a comment alone, which R79 does not speak of (DESIGN CHOICE,
log entry 12); `none` for a line that is not of the form of R79. -/
def parseLine (line : List Char) : Option (Option AsmLine) :=
  let cs := trimBlanks (dropComment (markQuoted false line))
  let name := cs.takeWhile fun c => !isBlank c.1
  let rest := trimBlanks (cs.dropWhile fun c => !isBlank c.1)
  let ops := if rest.isEmpty then [] else (splitOperands [] rest).map fun op => (trimBlanks op).map Prod.fst
  if cs.isEmpty then some none
  else (parseCommand (name.map Prod.fst) ops).map some

/-- The command words of one source line (R79, R80); `none` where the assembler rejects it. -/
def assembleLine (line : List Char) : Option (List CommandWord) :=
  match parseLine line with
  | none => none
  | some none => some []
  | some (some l) => assemble l

/-- The command words of a source text, line by line (R79). -/
def assembleProgram : List (List Char) → Option (List CommandWord)
  | [] => some []
  | l :: ls => (assembleLine l).bind fun ws => (assembleProgram ls).map fun ws' => ws ++ ws'

end Sys2Proof.Machine
end

