-- ==== Sys2Proof/Machine/Pipeline.lean ====
section
/-! DEFINITION. Pair assembly and the text-level transform (43_pipeline.md R170 to R173), and the host's canonical sequence that
computes it on the core (R175). -/

namespace Sys2Proof.Machine

/-- `Pairs(cs)`: chunk `2p` with chunk `2p + 1`, an odd last chunk with the synthetic filler chunk (R170). -/
def pairs : List Chunk → List (Chunk × Chunk)
  | c0 :: c1 :: cs => (c0, c1) :: pairs cs
  | [c] => [(c, fillerChunk)]
  | [] => []

/-- The output bytes of one pair of chunks under a function on blocks: both encoded, transformed, decoded (R171). -/
def transformPair (f : Word → Word → Word × Word) (p : Chunk × Chunk) : List Byte :=
  pairBytes (f (encodeChunk p.1) (encodeChunk p.2)).1 (f (encodeChunk p.1) (encodeChunk p.2)).2

/-- `EncryptText(t, k)` (R171). -/
def encryptText (t : List Byte) (k : Key) : List Byte :=
  (pairs (split t)).flatMap (transformPair fun v0 v1 => encrypt v0 v1 k)

/-- `DecryptText(u, k)` (R172). -/
def decryptText (u : List Byte) (k : Key) : List Byte :=
  (pairs (split u)).flatMap (transformPair fun v0 v1 => decrypt v0 v1 k)

/-- The text-level transform of a direction (R171, R172). -/
def transformText : Direction → List Byte → Key → List Byte
  | .encryption, t, k => encryptText t k
  | .decryption, t, k => decryptText t k

/-- The cipher command of a direction (R175). -/
def cipherCommand : Direction → Instr
  | .encryption => .enc
  | .decryption => .dec

/-- What follows a command that answered: `f` if it left a next state, else the same stop. -/
def andThen (o : Result) (f : State → Result) : Result :=
  match o with
  | .next s => f s
  | .fault r => .fault r
  | .refused r => .refused r

/-- Commands performed one after the other (20_memory.md R55). -/
def performAll : List Instr → State → Result
  | [], s => .next s
  | i :: is, s => andThen (exec i s) (performAll is)

/-- The data of the response last given, as the host sees it. -/
def lastData (s : State) : Word :=
  match s.resp.getLast? with
  | some r => r.data
  | none => 0#32

/-- "if the response data is 2": the cipher command and `EMIT` (R175). -/
def drainFullPair (d : Direction) (s : State) : Result :=
  if lastData s = 2#32 then performAll [cipherCommand d, .emit] s else .next s

/-- "for each byte b of t, in order": `PUSHB b`, then a full pair is transformed and emitted (R175). -/
def streamBytes (d : Direction) : List Byte → State → Result
  | [], s => .next s
  | b :: t, s => andThen (exec (.pushb b) s) fun s₁ => andThen (drainFullPair d s₁) (streamBytes d t)

/-- The bytes of a text and its end (R175). -/
def streamText (d : Direction) (t : List Byte) (s : State) : Result :=
  andThen (streamBytes d t s) fun s₁ => andThen (exec .eot s₁) (drainFullPair d)

/-- `KEY k0, k1, k2, k3`: the four `WRK` commands (30_encoding.md R80). -/
def loadKeyCommands (k : Key) : List Instr := [.wrk 0 k[0], .wrk 1 k[1], .wrk 2 k[2], .wrk 3 k[3]]

/-- The canonical host sequence for a whole text (R175). -/
def streamTextUnderKey (d : Direction) (k : Key) (t : List Byte) (s : State) : Result :=
  andThen (performAll (loadKeyCommands k) s) (streamText d t)

end Sys2Proof.Machine
end

