-- ==== Sys2Proof/Safety.lean ====
section
/-! DEFINITION. What the statements are made of: the invariant of the core (10_state.md R31, 30_encoding.md R77), when the
core is ready for a text (43_pipeline.md R175), and the frames that say which state a command leaves alone (10_state.md R35). -/

namespace Sys2Proof.Machine

/-- R31 (c): if `SLOT = 2` then `CN = 0`. (R31 (a) and (b) hold by the types of the fields.) -/
abbrev fullPairHasNoPending (s : State) : Prop := s.slot = 2 → s.cn = 0

/-- A key register whose valid bit is 0 holds zero: only `WRK`, which sets the bit, and reset, which zeroes both, write it
(10_state.md R21, R22, R32). -/
abbrev unwrittenKeysAreZero (s : State) : Prop := ∀ idx : Fin 4, s.kv.getLsbD idx = false → s.k[idx] = 0#32

/-- R77: `st` is at most 3, and `data` is 0 whenever `st` is not 0. -/
abbrev wellFormedResponse (r : Response) : Prop := r.st.toNat ≤ 3 ∧ (r.st ≠ 0#4 → r.data = 0#32)

/-- R77 for every response given so far. -/
abbrev responsesWellFormed (s : State) : Prop := ∀ r ∈ s.resp, wellFormedResponse r

/-- The invariant of the core. -/
abbrev State.Inv (s : State) : Prop := fullPairHasNoPending s ∧ unwrittenKeysAreZero s ∧ responsesWellFormed s

/-- No byte waits and no chunk has been delivered: the core is ready for a text (43_pipeline.md R175). -/
abbrev readyForText (s : State) : Prop := s.cn = 0 ∧ s.slot = 0

/-- Every piece of architectural state is zero (10_state.md R32). -/
abbrev archZero (s : State) : Prop :=
  (∀ idx : Fin 4, s.k[idx] = 0#32) ∧ s.kv = 0#4 ∧ (∀ idx : Fin 2, s.v[idx] = 0#32) ∧ (∀ idx : Fin 3, s.cb[idx] = 0#8)
    ∧ s.cn = 0 ∧ s.slot = 0 ∧ s.err = 0#3

/-- `K` and `KV` are as they were. -/
abbrev keyKept (s t : State) : Prop := t.k = s.k ∧ t.kv = s.kv

/-- `V` is as it was. -/
abbrev pairKept (s t : State) : Prop := t.v = s.v

/-- `CB` and `CN` are as they were. -/
abbrev bufferKept (s t : State) : Prop := t.cb = s.cb ∧ t.cn = s.cn

/-- `SLOT` is as it was. -/
abbrev slotKept (s t : State) : Prop := t.slot = s.slot

/-- `ERR` is as it was. -/
abbrev errorsKept (s t : State) : Prop := t.err = s.err

/-- The hidden `SUM` and `RND`, and the count of free values, are as they were. -/
abbrev hiddenKept (s t : State) : Prop := t.sum = s.sum ∧ t.rnd = s.rnd ∧ t.freeTick = s.freeTick

/-- `OUT` is as it was. -/
abbrev outputKept (s t : State) : Prop := t.out = s.out

/-- What the host does next is as it was. -/
abbrev inputsKept (s t : State) : Prop := t.inputs = s.inputs

/-- The command got exactly one response, `(st, data)` (30_encoding.md R77). -/
abbrev answered (st : BitVec 4) (data : Word) (s t : State) : Prop := t.resp = s.resp ++ [⟨st, data⟩]

/-- `raise E` happened and nothing else (60_exceptions.md R214). -/
abbrev onlyRaised (e : CoreError) (s t : State) : Prop :=
  t.err = s.err ||| errorBit e ∧ answered (errorCode e) 0#32 s t ∧ keyKept s t ∧ pairKept s t ∧ bufferKept s t
    ∧ slotKept s t ∧ hiddenKept s t ∧ outputKept s t ∧ inputsKept s t

/-- A state with its hidden registers, and the count of free values, blanked: what a host can ever observe (10_state.md R28). -/
def visible (s : State) : State := { s with sum := 0#32, rnd := 0, freeTick := 0 }

/-- A state with its key registers blanked (10_state.md R21: the key is write-only). -/
def keyHidden (s : State) : State := { s with k := Vector.replicate 4 0#32 }

end Sys2Proof.Machine
end

