-- ==== Sys2Proof/Certificates/Slice0/Obligations.lean ====
section
/-! DEFINITION. The statements for the provers. Each docstring names the rule of spec/ it formalises. -/

open Sys2Proof Sys2Proof.Machine

/-! ### Reset and the invariant -/

/-- 10_state.md R32: after reset, at power on and from any state, every piece of architectural state is zero, and OUT and RESP,
which are not state, are unchanged. (Of the hidden registers, which R32 leaves unspecified, nothing is said.) -/
def Obligations.ResetZeroesAllState : Prop :=
  archZero State.reset ∧ ∀ s : State, archZero (resetCore s) ∧ outputKept s (resetCore s) ∧ (resetCore s).resp = s.resp

/-- The invariant holds in the reset state (10_state.md R31, R32). -/
def Obligations.ResetStateMeetsInvariant : Prop := State.reset.Inv

/-- Every step keeps the invariant: a full pair has no pending byte (10_state.md R31 (c)), a key word that is not valid is zero
(10_state.md R21, R22, R32), every response has a status of at most 3 and no data on an error (30_encoding.md R77). -/
def Obligations.EveryStepKeepsInvariant : Prop := ∀ s t : State, s.Inv → step s = .next t → t.Inv

/-! ### Encoding -/

/-- Every command decodes from its own word (30_encoding.md R70, R74, R78). -/
def Obligations.DecodeOfEncode : Prop := ∀ i : Instr, decode (encode i) = .ok i

/-- A word that decodes is the word of the command it decodes to, so each legal word has one meaning and no bit of it is
dropped (30_encoding.md R78). -/
def Obligations.EncodeOfDecode : Prop := ∀ (c : CommandWord) (i : Instr), decode c = .ok i → encode i = c

/-- 30_encoding.md R74: a word that decodes is in its command's row of the opcode map, a word that does not is in no row, and the
rows exclude each other. -/
def Obligations.DecodeFollowsOpcodeMap : Prop :=
  (∀ (c : CommandWord) (i : Instr), decode c = .ok i → selectsRow c i)
    ∧ (∀ (c : CommandWord) (e : DecodeReject), decode c = .error e → ∀ i : Instr, ¬ selectsRow c i)
    ∧ (∀ (c : CommandWord) (i j : Instr), selectsRow c i → selectsRow c j → mnemonic i = mnemonic j)

/-- 30_encoding.md R75, which words are illegal: an unassigned `op`, or a must-be-zero part of `imm` that is not zero. -/
def Obligations.IllegalWordsAreExactly : Prop :=
  ∀ c : CommandWord, (∃ e, decode c = .error e) ↔ illegalWord c

/-- A few words written out from the patterns of 30_encoding.md R74 decode to the commands they stand for, and a few near them
to none (95_test_vectors.md T60 to T6H). A sanity statement. -/
def Obligations.SpecWordsDecode : Prop :=
  decode 0x1388ACA2AB#40 = .ok (.wrk 3 0x88ACA2AB#32)
    ∧ decode 0x216E61204D#40 = .ok (.wrv 1 0x6E61204D#32)
    ∧ decode 0x2900000000#40 = .ok (.rdv 1)
    ∧ decode 0x3000000000#40 = .ok .rdst
    ∧ decode 0x3F00000000#40 = .ok .rst
    ∧ decode 0x40000000FF#40 = .ok (.pushb 0xFF#8)
    ∧ decode 0x4100000000#40 = .ok .eot
    ∧ decode 0x5000000000#40 = .ok .emit
    ∧ decode 0x6000000000#40 = .ok .enc
    ∧ decode 0x6100000000#40 = .ok .dec
    ∧ decode 0x6000000001#40 = .error .nonzeroMustBeZero
    ∧ decode 0x4000000100#40 = .error .nonzeroMustBeZero
    ∧ decode 0x1400000000#40 = .error .unassignedOpcode

/-- 30_encoding.md R79: an accepted line that is not `RAW` emits only words that are commands, and a line whose numbers do not
fit is rejected (that a word operand out of range is rejected too is the model's choice, log entry 12). -/
def Obligations.AssemblerEmitsOnlyCommands : Prop :=
  (∀ (l : AsmLine) (ws : List CommandWord), assemble l = some ws → (∀ op imm, l ≠ .raw op imm) →
      ∀ c ∈ ws, ∃ i, decode c = .ok i)
    ∧ (∀ l : AsmLine, l.wf = false → assemble l = none)

/-! ### The step -/

/-- The step performs the decoded command: when the host's next event is a word that decodes to `i`, the step is `exec i` on
the state with that event taken away (20_memory.md R55). -/
def Obligations.StepPerformsDecodedCommand : Prop :=
  ∀ (s : State) (c : CommandWord) (rest : List HostEvent) (i : Instr), s.inputs = .command c :: rest → decode c = .ok i →
    step s = exec i { s with inputs := rest }

/-- 30_encoding.md R75, 60_exceptions.md R211: an illegal word raises ILLEGAL whatever the state: status 1, `ERR[0]` set, no
other effect. -/
def Obligations.IllegalCommandRaises : Prop :=
  ∀ (s : State) (c : CommandWord) (rest : List HostEvent), s.inputs = .command c :: rest → illegalWord c →
    ∃ t, step s = .next t ∧ t.inputs = rest ∧ t.err = s.err ||| 0b001#3 ∧ answered 1#4 0#32 s t
      ∧ keyKept s t ∧ pairKept s t ∧ bufferKept s t ∧ slotKept s t ∧ hiddenKept s t ∧ outputKept s t

/-- With nothing presented the core idles and holds its registers (60_exceptions.md R222, 70_reset_and_hazards.md R240). That
waiting is a step that changes nothing is the model's choice (log entry 1). -/
def Obligations.IdleStepHoldsState : Prop := ∀ s : State, s.inputs = [] → step s = .next s

/-- 70_reset_and_hazards.md R240: the reset input puts the core in the reset state and gives no response; OUT and RESP are not
erased (10_state.md R30). -/
def Obligations.ResetInputZeroesTheCore : Prop :=
  ∀ (s : State) (rest : List HostEvent), s.inputs = .reset :: rest →
    ∃ t, step s = .next t ∧ archZero t ∧ outputKept s t ∧ t.resp = s.resp ∧ t.inputs = rest

/-- 70_reset_and_hazards.md R246: reset in the middle of a command abandons it: no response, the reset state, and of an `EMIT`
the bytes already taken, a prefix of its eight, stay in OUT. That another command has put nothing on OUT is deduced (log entry
5). -/
def Obligations.ResetDuringCommandAbandonsIt : Prop :=
  ∀ (s : State) (c : CommandWord) (taken : Fin 9) (rest : List HostEvent), s.inputs = .resetDuring c taken :: rest →
    ∃ t, step s = .next t ∧ archZero t ∧ t.resp = s.resp ∧ t.inputs = rest
      ∧ (decode c = .ok .emit →
          ∃ bs, t.out = s.out ++ bs ∧ bs.length = taken.val ∧ bs <+: pairBytes s.v[0] s.v[1])
      ∧ (decode c ≠ .ok .emit → t.out = s.out)

/-- An `EMIT` whose output bytes are never taken never completes and the core accepts no further command (20_memory.md R57,
70_reset_and_hazards.md R245): the model stops by name (log entry 6). -/
def Obligations.EmitNeverTakenStops : Prop :=
  ∀ (s : State) (taken : Fin 8) (rest : List HostEvent), s.inputs = .emitStalled taken :: rest →
    step s = .fault (.outputNeverTaken taken)

/-- 30_encoding.md R77: every command, legal or not, is answered by exactly one response; its status is 0, 1, 2 or 3, and its
data is 0 whenever the status is not 0. -/
def Obligations.EveryCommandAnsweredOnce : Prop :=
  ∀ (s : State) (c : CommandWord) (rest : List HostEvent), s.inputs = .command c :: rest →
    ∃ t r, step s = .next t ∧ t.resp = s.resp ++ [r] ∧ wellFormedResponse r ∧ t.inputs = rest

/-! ### Host access commands -/

/-- `WRK i, w` (44_host_access.md R190): `K[i]` and `KV[i]` are written, the other key words and valid bits stay, the answer is
(OK, 0), and nothing else changes. -/
def Obligations.WrkWritesKeyWord : Prop :=
  ∀ (idx : Fin 4) (w : Word) (s : State), ∃ t, exec (.wrk idx w) s = .next t
    ∧ (∀ j : Fin 4, t.k[j] = if j = idx then w else s.k[j])
    ∧ (∀ j : Fin 4, t.kv.getLsbD j = (decide (j = idx) || s.kv.getLsbD j))
    ∧ answered 0#4 0#32 s t ∧ pairKept s t ∧ bufferKept s t ∧ slotKept s t ∧ errorsKept s t ∧ hiddenKept s t
    ∧ outputKept s t ∧ inputsKept s t

/-- `WRV i, w` (44_host_access.md R191): `V[i]` is written, the other stays, `SLOT` is not changed, the answer is (OK, 0), and
nothing else changes. -/
def Obligations.WrvWritesDataWord : Prop :=
  ∀ (idx : Fin 2) (w : Word) (s : State), ∃ t, exec (.wrv idx w) s = .next t
    ∧ (∀ j : Fin 2, t.v[j] = if j = idx then w else s.v[j])
    ∧ answered 0#4 0#32 s t ∧ keyKept s t ∧ bufferKept s t ∧ slotKept s t ∧ errorsKept s t ∧ hiddenKept s t
    ∧ outputKept s t ∧ inputsKept s t

/-- `RDV i` answers (OK, `V[i]`) and `RDST` answers (OK, `STATUS`), and neither changes anything (44_host_access.md R192,
R193; 20_memory.md R62: reads have no side effects). -/
def Obligations.ReadsAnswerAndChangeNothing : Prop :=
  ∀ s : State,
    (∀ idx : Fin 2, ∃ t, exec (.rdv idx) s = .next t ∧ answered 0#4 s.v[idx] s t ∧ keyKept s t ∧ pairKept s t
      ∧ bufferKept s t ∧ slotKept s t ∧ errorsKept s t ∧ hiddenKept s t ∧ outputKept s t ∧ inputsKept s t)
    ∧ ∃ t, exec .rdst s = .next t ∧ answered 0#4 (statusWord s) s t ∧ keyKept s t ∧ pairKept s t
      ∧ bufferKept s t ∧ slotKept s t ∧ errorsKept s t ∧ hiddenKept s t ∧ outputKept s t ∧ inputsKept s t

/-- 10_state.md R33: the fields of the status word, its reserved bits hardwired 0, the value of the whole word, that it is 0
after reset, and that `RDST` returns it. -/
def Obligations.StatusWordLayout : Prop :=
  statusWord State.reset = 0#32 ∧ ∀ s : State,
    ((statusWord s).extractLsb' 0 2).toNat = s.cn.val
      ∧ ((statusWord s).extractLsb' 2 2).toNat = s.slot.val
      ∧ (∀ j : Fin 4, (statusWord s).getLsbD (4 + j.val) = s.kv.getLsbD j)
      ∧ (∀ j : Fin 3, (statusWord s).getLsbD (8 + j.val) = s.err.getLsbD j)
      ∧ (∀ n, 11 ≤ n → (statusWord s).getLsbD n = false)
      ∧ (statusWord s).toNat = s.cn.val + 4 * s.slot.val + 16 * s.kv.toNat + 256 * s.err.toNat
      ∧ ∃ t, exec .rdst s = .next t ∧ answered 0#4 (statusWord s) s t

/-- `RST` (44_host_access.md R194): the state afterwards is the reset state of 10_state.md R32, OUT keeps what was emitted, and
the `RST` itself gets (OK, 0). -/
def Obligations.RstResetsTheCore : Prop :=
  ∀ s : State, ∃ t, exec .rst s = .next t ∧ archZero t ∧ answered 0#4 0#32 s t ∧ outputKept s t ∧ inputsKept s t

/-! ### Splitter and codec commands -/

/-- `Deliver(c)` (40_blocksplitter.md R104): with `SLOT < 2`, `V[SLOT] <- Encode(c)` and `SLOT <- SLOT + 1`, and nothing
else. -/
def Obligations.DeliverFillsNextSlot : Prop :=
  ∀ (c : Chunk) (s : State), s.slot < 2 →
    (∀ j : Fin 2, (deliver c s).v[j] = if j.val = s.slot.val then encodeChunk c else s.v[j])
      ∧ (deliver c s).slot.val = s.slot.val + 1
      ∧ (deliver c s).resp = s.resp ∧ keyKept s (deliver c s) ∧ bufferKept s (deliver c s) ∧ errorsKept s (deliver c s)
      ∧ hiddenKept s (deliver c s) ∧ outputKept s (deliver c s) ∧ inputsKept s (deliver c s)

/-- `PUSHB b` with room in the pair (40_blocksplitter.md R105): the first three bytes of a chunk are stored at `CB[CN]`; the
fourth completes the chunk, which is encoded into `V[SLOT]`, and `CN` becomes 0; the answer is (OK, `SLOT` after). That `CB` keeps
its bytes then is deduced (log entry 9). -/
def Obligations.PushbStoresOrDelivers : Prop :=
  ∀ (b : Byte) (s : State), s.slot ≠ 2 →
    ∃ t, exec (.pushb b) s = .next t
      ∧ answered 0#4 (BitVec.ofNat 32 t.slot.val) s t
      ∧ keyKept s t ∧ errorsKept s t ∧ hiddenKept s t ∧ outputKept s t ∧ inputsKept s t
      ∧ (if s.cn.val < 3 then
          (∀ j : Fin 3, t.cb[j] = if j.val = s.cn.val then b else s.cb[j]) ∧ t.cn.val = s.cn.val + 1
            ∧ pairKept s t ∧ slotKept s t
        else
          t.cb = s.cb ∧ t.cn = 0 ∧ t.slot.val = s.slot.val + 1
            ∧ ∀ j : Fin 2, t.v[j] = if j.val = s.slot.val then encodeChunk ⟨s.cb[0], s.cb[1], s.cb[2], b⟩ else s.v[j])

/-- `PUSHB` on a full pair (40_blocksplitter.md R105, 60_exceptions.md R213): PAIRFULL whatever `CN` is; the byte is dropped and
nothing else changes. `EOT` on a full pair answers OK: it never raises PAIRFULL. -/
def Obligations.PushbOnFullPairRaises : Prop :=
  ∀ (b : Byte) (s : State), s.slot = 2 →
    (∃ t, exec (.pushb b) s = .next t ∧ onlyRaised .pairFull s t)
      ∧ ∃ t, exec .eot s = .next t ∧ answered 0#4 2#32 s t ∧ errorsKept s t

/-- `EOT` (40_blocksplitter.md R106), its table of cases: nothing pending and the pair empty or full: nothing; a pending short
chunk is padded and delivered; an odd pair is completed with the filler word 0x2E2E2E2E; the answer is (OK, `SLOT` after).
On a full pair nothing changes whatever `CN` is. That `CB` keeps its bytes is deduced (log entry 9). -/
def Obligations.EotPadsAndCompletesThePair : Prop :=
  ∀ s : State, ∃ t, exec .eot s = .next t
    ∧ answered 0#4 (BitVec.ofNat 32 t.slot.val) s t
    ∧ keyKept s t ∧ t.cb = s.cb ∧ errorsKept s t ∧ hiddenKept s t ∧ outputKept s t ∧ inputsKept s t
    ∧ (s.slot = 0 → s.cn = 0 → t.slot = 0 ∧ t.cn = 0 ∧ pairKept s t)
    ∧ (s.slot = 0 → s.cn ≠ 0 → t.slot = 2 ∧ t.cn = 0 ∧ t.v[0] = encodeChunk (pad (pending s)) ∧ t.v[1] = 0x2E2E2E2E#32)
    ∧ (s.slot = 1 → s.cn = 0 → t.slot = 2 ∧ t.cn = 0 ∧ t.v[0] = s.v[0] ∧ t.v[1] = 0x2E2E2E2E#32)
    ∧ (s.slot = 1 → s.cn ≠ 0 → t.slot = 2 ∧ t.cn = 0 ∧ t.v[0] = s.v[0] ∧ t.v[1] = encodeChunk (pad (pending s)))
    ∧ (s.slot = 2 → t.slot = 2 ∧ t.cn = s.cn ∧ pairKept s t)

/-- `EMIT` (41_wordcodec.md R124): OUT gains the bytes of `V[0]`, most significant first, then those of `V[1]`; `SLOT` becomes 0
whatever it was; the answer is (OK, 0); nothing else changes. -/
def Obligations.EmitPutsThePairOut : Prop :=
  ∀ s : State, ∃ t, exec .emit s = .next t
    ∧ t.out = s.out ++ [s.v[0].extractLsb' 24 8, s.v[0].extractLsb' 16 8, s.v[0].extractLsb' 8 8, s.v[0].extractLsb' 0 8,
        s.v[1].extractLsb' 24 8, s.v[1].extractLsb' 16 8, s.v[1].extractLsb' 8 8, s.v[1].extractLsb' 0 8]
    ∧ t.slot = 0 ∧ answered 0#4 0#32 s t
    ∧ keyKept s t ∧ pairKept s t ∧ bufferKept s t ∧ errorsKept s t ∧ hiddenKept s t ∧ inputsKept s t

/-- Four bytes pushed into an empty core are read back as one big-endian word (20_memory.md R52, 41_wordcodec.md R126): the first
byte pushed is bits 31:24. -/
def Obligations.PushedBytesReadBackBigEndian : Prop :=
  ∀ (b0 b1 b2 b3 : Byte) (s : State), readyForText s →
    ∃ t, performAll [.pushb b0, .pushb b1, .pushb b2, .pushb b3, .rdv 0] s = .next t
      ∧ (lastData t).toNat = b0.toNat * 2 ^ 24 + b1.toNat * 2 ^ 16 + b2.toNat * 2 ^ 8 + b3.toNat

/-! ### Cipher commands -/

/-- `ENC` with all four key words written (42_teacipher.md R146): the pair becomes its encryption under `K`; the answer is
(OK, 0); the key, the splitter's state, the errors and OUT stay. The hidden `SUM` and `RND` are left as 10_state.md R28 derives
them (0xC6EF3720 and 32; log entry 13). -/
def Obligations.EncEncryptsThePair : Prop :=
  ∀ s : State, keyLoaded s → ∃ t, exec .enc s = .next t
    ∧ (t.v[0], t.v[1]) = encrypt s.v[0] s.v[1] s.k
    ∧ t.sum = 0xC6EF3720#32 ∧ t.rnd.val = 32 ∧ t.freeTick = s.freeTick
    ∧ answered 0#4 0#32 s t ∧ keyKept s t ∧ bufferKept s t ∧ slotKept s t ∧ errorsKept s t ∧ outputKept s t ∧ inputsKept s t

/-- `DEC` with all four key words written (42_teacipher.md R147): as `ENC`, with the decryption; the hidden `SUM` ends at 0, as
10_state.md R28 derives it (log entry 13). -/
def Obligations.DecDecryptsThePair : Prop :=
  ∀ s : State, keyLoaded s → ∃ t, exec .dec s = .next t
    ∧ (t.v[0], t.v[1]) = decrypt s.v[0] s.v[1] s.k
    ∧ t.sum = 0#32 ∧ t.rnd.val = 32 ∧ t.freeTick = s.freeTick
    ∧ answered 0#4 0#32 s t ∧ keyKept s t ∧ bufferKept s t ∧ slotKept s t ∧ errorsKept s t ∧ outputKept s t ∧ inputsKept s t

/-- 60_exceptions.md R212: `ENC` and `DEC` raise NOKEY when at least one of the four valid bits is 0, and nothing else changes; a
key whose words were all written is never refused, whatever its value. -/
def Obligations.CipherNeedsTheWholeKey : Prop :=
  ∀ s : State,
    ((∃ j : Fin 4, s.kv.getLsbD j = false) →
      (∃ t, exec .enc s = .next t ∧ onlyRaised .noKey s t) ∧ ∃ t, exec .dec s = .next t ∧ onlyRaised .noKey s t)
    ∧ ((∀ j : Fin 4, s.kv.getLsbD j = true) →
      (∃ t, exec .enc s = .next t ∧ answered 0#4 0#32 s t) ∧ ∃ t, exec .dec s = .next t ∧ answered 0#4 0#32 s t)

/-- `ENC` then `DEC` restores the pair, and `DEC` then `ENC` too (42_teacipher.md R146, R147 corner cases). -/
def Obligations.CipherCommandsUndoEachOther : Prop :=
  ∀ s : State, keyLoaded s →
    (∃ t, performAll [.enc, .dec] s = .next t ∧ t.v = s.v) ∧ ∃ t, performAll [.dec, .enc] s = .next t ∧ t.v = s.v

/-- The round engine of 42_teacipher.md R153, 32 steps from its start, does what `ENC` and `DEC` do before they answer, and it
stops when `RND = 32` (log entry 13). -/
def Obligations.RoundEngineRefinesCipherCommands : Prop :=
  (∀ (d : Direction) (s : State), keyLoaded s →
      exec (cipherCommand d) s = .next (addResponse 0#4 0#32 (engineRun d 32 (engineStart d s))))
    ∧ ∀ (d : Direction) (s : State), s.rnd.val = 32 → engineStep d s = s

/-! ### The cipher's functions -/

/-- 42_teacipher.md R140 with the operators of 00_scope.md R9 on numbers: each term an addition modulo 2^32, the left shift
dropping the top bits, the right shift a division, the terms joined by exclusive or. -/
def Obligations.MixingFunctionOnNumbers : Prop :=
  ∀ x s ka kb : Word, (mix x s ka kb).toNat =
    ((x.toNat * 2 ^ 4 % 2 ^ 32 + ka.toNat) % 2 ^ 32) ^^^ ((x.toNat + s.toNat) % 2 ^ 32)
      ^^^ ((x.toNat / 2 ^ 5 + kb.toNat) % 2 ^ 32)

/-- 42_teacipher.md R141 and R142: the two round bodies, each statement seeing the results of those before it. -/
def Obligations.RoundsFollowTheDocument : Prop :=
  ∀ (v0 v1 sum : Word) (k : Key),
    (∃ sum' v0' v1', encRound k ⟨v0, v1, sum⟩ = ⟨v0', v1', sum'⟩
      ∧ sum' = sum + 0x9E3779B9#32
      ∧ v0' = v0 + (((v1 <<< 4) + k[0]) ^^^ (v1 + sum') ^^^ ((v1 >>> 5) + k[1]))
      ∧ v1' = v1 + (((v0' <<< 4) + k[2]) ^^^ (v0' + sum') ^^^ ((v0' >>> 5) + k[3])))
    ∧ ∃ sum' v0' v1', decRound k ⟨v0, v1, sum⟩ = ⟨v0', v1', sum'⟩
      ∧ v1' = v1 - (((v0 <<< 4) + k[2]) ^^^ (v0 + sum) ^^^ ((v0 >>> 5) + k[3]))
      ∧ v0' = v0 - (((v1' <<< 4) + k[0]) ^^^ (v1' + sum) ^^^ ((v1' >>> 5) + k[1]))
      ∧ sum' = sum - 0x9E3779B9#32

/-- 42_teacipher.md R148: the two rounds undo each other, in both orders. -/
def Obligations.RoundsUndoEachOther : Prop :=
  ∀ (k : Key) (r : CipherState), decRound k (encRound k r) = r ∧ encRound k (decRound k r) = r

/-- 42_teacipher.md R143 and R145: `Encrypt` is the pair after exactly 32 encrypt rounds from `sum = 0`, `Decrypt` the pair after
exactly 32 decrypt rounds from `sum = 0xC6EF3720`; no swap, no whitening. -/
def Obligations.CipherIsThirtyTwoRounds : Prop :=
  ∀ (v0 v1 : Word) (k : Key),
    encrypt v0 v1 k = (((encRound k)^[32] ⟨v0, v1, 0#32⟩).v0, ((encRound k)^[32] ⟨v0, v1, 0#32⟩).v1)
      ∧ decrypt v0 v1 k = (((decRound k)^[32] ⟨v0, v1, 0xC6EF3720#32⟩).v0, ((decRound k)^[32] ⟨v0, v1, 0xC6EF3720#32⟩).v1)

/-- 42_teacipher.md R144: after `r` encrypt rounds `sum` is `r * DELTA`, after `r` decrypt rounds it is `(32 - r) * DELTA`, modulo
2^32; the whole loops end at 0xC6EF3720 and 0. The sum depends neither on the data nor on the key. -/
def Obligations.RoundSums : Prop :=
  (∀ (v0 v1 : Word) (k : Key) (r : Nat), r ≤ 32 →
      (runRounds (encRound k) r ⟨v0, v1, 0#32⟩).sum = BitVec.ofNat 32 (r * 0x9E3779B9)
        ∧ (runRounds (decRound k) r ⟨v0, v1, 0xC6EF3720#32⟩).sum = BitVec.ofNat 32 ((32 - r) * 0x9E3779B9))
    ∧ ∀ (v0 v1 : Word) (k : Key), (encryptLoop k v0 v1).sum = 0xC6EF3720#32 ∧ (decryptLoop k v0 v1).sum = 0#32

/-- 42_teacipher.md R149: `Decrypt` is the inverse of `Encrypt` on every block under every key, and `Encrypt` of `Decrypt`. -/
def Obligations.CipherRoundTrip : Prop :=
  ∀ (v0 v1 : Word) (k : Key),
    decrypt (encrypt v0 v1 k).1 (encrypt v0 v1 k).2 k = (v0, v1)
      ∧ encrypt (decrypt v0 v1 k).1 (decrypt v0 v1 k).2 k = (v0, v1)

/-! ### The codec's and the splitter's functions -/

/-- 41_wordcodec.md R120: the three forms of `Encode` agree, byte 0 is bits 31:24, and `Encode` is injective. -/
def Obligations.ChunkEncodingIsBigEndian : Prop :=
  (∀ c : Chunk,
      encodeChunk c = (c.b0.setWidth 32 <<< 24) ||| (c.b1.setWidth 32 <<< 16) ||| (c.b2.setWidth 32 <<< 8)
          ||| c.b3.setWidth 32
        ∧ (encodeChunk c).toNat = c.b0.toNat * 2 ^ 24 + c.b1.toNat * 2 ^ 16 + c.b2.toNat * 2 ^ 8 + c.b3.toNat
        ∧ (encodeChunk c).extractLsb' 24 8 = c.b0 ∧ (encodeChunk c).extractLsb' 16 8 = c.b1
        ∧ (encodeChunk c).extractLsb' 8 8 = c.b2 ∧ (encodeChunk c).extractLsb' 0 8 = c.b3)
    ∧ ∀ c d : Chunk, encodeChunk c = encodeChunk d → c = d

/-- 41_wordcodec.md R121: the bytes of a word, most significant first, by bit fields and by shift and mask. -/
def Obligations.WordDecodingIsBigEndian : Prop :=
  ∀ w : Word,
    chunkBytes (decodeWord w) = [w.extractLsb' 24 8, w.extractLsb' 16 8, w.extractLsb' 8 8, w.extractLsb' 0 8]
      ∧ (chunkBytes (decodeWord w)).map (fun b => b.setWidth 32)
    = [(w >>> 24) &&& 0xFF#32, (w >>> 16) &&& 0xFF#32, (w >>> 8) &&& 0xFF#32, w &&& 0xFF#32]

/-- 41_wordcodec.md R122: `Decode(Encode(c)) = c` and `Encode(Decode(w)) = w`. -/
def Obligations.CodecRoundTrip : Prop :=
  (∀ c : Chunk, decodeWord (encodeChunk c) = c) ∧ ∀ w : Word, encodeChunk (decodeWord w) = w

/-- 40_blocksplitter.md R101: `Pad(p) = p ++ rep(0x2E, 4 - len(p))`, always four bytes. -/
def Obligations.PadFillsToFourBytes : Prop :=
  ∀ p : List Byte, p.length ≤ 4 → chunkBytes (pad p) = p ++ List.replicate (4 - p.length) 0x2E#8

/-- 40_blocksplitter.md R100: `Split(t)` is the `len(t) div 4` full chunks in text order, then the padded remainder if there is
one. -/
def Obligations.SplitCutsTheText : Prop :=
  ∀ t : List Byte,
    (split t).map chunkBytes = (List.range (t.length / 4)).map (fun j => (t.drop (4 * j)).take 4)
      ++ if t.length % 4 = 0 then [] else [chunkBytes (pad (t.drop (4 * (t.length / 4))))]

/-- 40_blocksplitter.md R102: the number of chunks, and that their concatenation is the text followed by 0 to 3 fillers. -/
def Obligations.SplitKeepsTheText : Prop :=
  ∀ t : List Byte,
    (split t).length = (t.length + 3) / 4
      ∧ (split t).flatMap chunkBytes = t ++ List.replicate ((4 - t.length % 4) % 4) 0x2E#8

/-- 43_pipeline.md R170: the chunks are paired consecutively, an odd last one with the filler chunk; `ceil(m / 2)` pairs. -/
def Obligations.PairsAreConsecutive : Prop :=
  ∀ cs : List Chunk,
    (pairs cs).flatMap (fun p => [p.1, p.2])
        = cs ++ (if cs.length % 2 = 1 then [⟨0x2E#8, 0x2E#8, 0x2E#8, 0x2E#8⟩] else [])
      ∧ (pairs cs).length = (cs.length + 1) / 2

/-! ### The text level -/

/-- 43_pipeline.md R173: the length of `EncryptText` and of `DecryptText` is `8 * ceil(ceil(len / 4) / 2)`, which is
`8 * ceil(len / 8)`. -/
def Obligations.TextLength : Prop :=
  ∀ (t : List Byte) (k : Key),
    (encryptText t k).length = 8 * (((t.length + 3) / 4 + 1) / 2)
      ∧ (encryptText t k).length = 8 * ((t.length + 7) / 8)
      ∧ (decryptText t k).length = (encryptText t k).length

/-- 43_pipeline.md R174: decrypting an encrypted text gives the text followed by fillers up to a multiple of 8 bytes, 0 to 7 of
them. -/
def Obligations.TextRoundTrip : Prop :=
  ∀ (t : List Byte) (k : Key),
    decryptText (encryptText t k) k = t ++ List.replicate ((encryptText t k).length - t.length) 0x2E#8
      ∧ t.length ≤ (encryptText t k).length ∧ (encryptText t k).length - t.length ≤ 7

/-- 43_pipeline.md R176: the output bytes `8p .. 8p+7` are those of the text bytes `8p .. 8p+7` alone under the key. -/
def Obligations.BlocksAreIndependent : Prop :=
  ∀ (d : Direction) (t : List Byte) (k : Key) (p : Nat),
    ((transformText d t k).drop (8 * p)).take 8 = transformText d ((t.drop (8 * p)).take 8) k

/-- 43_pipeline.md R175: a text of any length streamed through the core under a key, as the host is told to do it, appends
exactly `EncryptText(t, k)` (with `DEC`: `DecryptText(t, k)`) to OUT, answers every command OK, and leaves the core ready for
the next text with its errors unchanged. -/
def Obligations.StreamPathComputesTheText : Prop :=
  ∀ (d : Direction) (k : Key) (t : List Byte) (s : State), readyForText s →
    ∃ u rs, streamTextUnderKey d k t s = .next u
      ∧ u.out = s.out ++ transformText d t k
      ∧ u.resp = s.resp ++ rs ∧ (∀ r ∈ rs, r.st = 0#4)
      ∧ readyForText u ∧ u.k = k ∧ keyLoaded u ∧ errorsKept s u ∧ inputsKept s u

/-! ### Rules about the whole machine -/

/-- 10_state.md R21, R22: of the commands only `WRK` and `RST` write the key or its valid bits, and `WRK` clears no valid bit. -/
def Obligations.OnlyWrkAndRstWriteTheKey : Prop :=
  ∀ (i : Instr) (s t : State), exec i s = .next t → i ≠ .rst →
    ((∀ idx w, i ≠ .wrk idx w) → keyKept s t) ∧ s.kv &&& t.kv = s.kv

/-- 10_state.md R21: the key is write-only: for every command but `ENC` and `DEC`, two states that differ at most in `K` are
answered alike and give states that differ at most in `K`. -/
def Obligations.KeyIsNeverReadBack : Prop :=
  ∀ (i : Instr) (s s' t : State), i ≠ .enc → i ≠ .dec → keyHidden s = keyHidden s' → exec i s = .next t →
    ∃ t', exec i s' = .next t' ∧ keyHidden t = keyHidden t'

/-- 10_state.md R25: of the commands only `PUSHB` and `EOT` raise `SLOT`, only `EMIT` and `RST` lower it, and those two clear
it. -/
def Obligations.SlotWritersAreFew : Prop :=
  ∀ (i : Instr) (s t : State), exec i s = .next t →
    (s.slot < t.slot → (∃ b, i = .pushb b) ∨ i = .eot)
      ∧ (t.slot < s.slot → i = .emit ∨ i = .rst)
      ∧ (i = .emit ∨ i = .rst → t.slot = 0)

/-- 10_state.md R26: an error bit stays set through every command but `RST`. -/
def Obligations.ErrorBitsAreSticky : Prop :=
  ∀ (s t : State) (c : CommandWord) (rest : List HostEvent), s.inputs = .command c :: rest → decode c ≠ .ok .rst →
    step s = .next t → s.err &&& t.err = s.err

/-- 60_exceptions.md R214: a command answered with an error has no effect but the one sticky bit of that error and its
response. -/
def Obligations.FailingCommandChangesOnlyItsBit : Prop :=
  ∀ (s t : State) (c : CommandWord) (rest : List HostEvent) (r : Response), s.inputs = .command c :: rest →
    step s = .next t → t.resp = s.resp ++ [r] → r.st ≠ 0#4 →
    ∃ e : CoreError, r.st = errorCode e ∧ onlyRaised e { s with inputs := rest } t

/-- 10_state.md R30: no step takes back an output byte or a response, a reset neither. -/
def Obligations.OutputsOnlyGrow : Prop :=
  ∀ s t : State, step s = .next t → s.out <+: t.out ∧ s.resp <+: t.resp

/-- 10_state.md R28: nothing a host can observe depends on what `SUM` and `RND` hold: two states that differ at most in them
(and in the model's count of free values) give the same stop or next states that differ at most in them. -/
def Obligations.HiddenRegistersAreNeverObserved : Prop :=
  ∀ s s' : State, visible s = visible s' →
    match step s, step s' with
    | .next t, .next t' => visible t = visible t'
    | .fault f, .fault f' => f = f'
    | .refused r, .refused r' => r = r'
    | _, _ => False
end

