-- ==== Sys2Proof/Laws/Cipher.lean ====
section
/-! SUPPORT. The small lemmas of the round loop. -/

namespace Sys2Proof.Machine

@[simp] theorem runRounds_zero (f : CipherState → CipherState) (r : CipherState) : runRounds f 0 r = r := rfl

@[simp] theorem runRounds_succ (f : CipherState → CipherState) (n : Nat) (r : CipherState) :
    runRounds f (n + 1) r = runRounds f n (f r) := rfl

/-- The last round of a loop taken apart, where the definition takes the first. -/
theorem runRounds_succ_last (f : CipherState → CipherState) (n : Nat) (r : CipherState) :
    runRounds f (n + 1) r = f (runRounds f n r) := by
  induction n generalizing r with
  | zero => rfl
  | succ n ih => exact ih (f r)

@[simp] theorem engineRun_zero (d : Direction) (s : State) : engineRun d 0 s = s := rfl

@[simp] theorem engineRun_succ (d : Direction) (n : Nat) (s : State) :
    engineRun d (n + 1) s = engineRun d n (engineStep d s) := rfl

end Sys2Proof.Machine
end

