-- ==== Sys2Proof/Laws/Codec.lean ====
section
/-! SUPPORT. The small lemmas of the codec's, the splitter's and the pairing's functions, one for each equation of their
definitions and for the length of what they make. -/

namespace Sys2Proof.Machine

@[simp] theorem chunkBytes_length (c : Chunk) : (chunkBytes c).length = 4 := rfl

@[simp] theorem pairBytes_length (v0 v1 : Word) : (pairBytes v0 v1).length = 8 := rfl

@[simp] theorem split_nil : split [] = [] := by simp [split]

@[simp] theorem split_cons_four (b0 b1 b2 b3 : Byte) (t : List Byte) :
    split (b0 :: b1 :: b2 :: b3 :: t) = ⟨b0, b1, b2, b3⟩ :: split t := by simp [split]

/-- A remainder of one, two or three bytes is one padded chunk. -/
theorem split_short (t : List Byte) (h0 : t ≠ []) (h4 : t.length < 4) : split t = [pad t] := by
  match t, h0, h4 with
  | [_], _, _ => simp [split]
  | [_, _], _, _ => simp [split]
  | [_, _, _], _, _ => simp [split]

@[simp] theorem pairs_nil : pairs [] = [] := by simp [pairs]

@[simp] theorem pairs_one (c : Chunk) : pairs [c] = [(c, fillerChunk)] := by simp [pairs]

@[simp] theorem pairs_cons_two (c0 c1 : Chunk) (cs : List Chunk) : pairs (c0 :: c1 :: cs) = (c0, c1) :: pairs cs := by
  simp [pairs]

@[simp] theorem transformPair_length (f : Word → Word → Word × Word) (p : Chunk × Chunk) :
    (transformPair f p).length = 8 := rfl

end Sys2Proof.Machine
end

