-- ==== Sys2Proof/Laws/State.lean ====
section
/-! SUPPORT. What each named update of the state does to each field, true by unfolding. -/

namespace Sys2Proof.Machine

/-! ### `writeKey` -/

@[simp] theorem writeKey_k (idx : Fin 4) (w : Word) (s : State) : (writeKey idx w s).k = s.k.set idx w := rfl
@[simp] theorem writeKey_kv (idx : Fin 4) (w : Word) (s : State) : (writeKey idx w s).kv = s.kv := rfl
@[simp] theorem writeKey_v (idx : Fin 4) (w : Word) (s : State) : (writeKey idx w s).v = s.v := rfl
@[simp] theorem writeKey_cb (idx : Fin 4) (w : Word) (s : State) : (writeKey idx w s).cb = s.cb := rfl
@[simp] theorem writeKey_cn (idx : Fin 4) (w : Word) (s : State) : (writeKey idx w s).cn = s.cn := rfl
@[simp] theorem writeKey_slot (idx : Fin 4) (w : Word) (s : State) : (writeKey idx w s).slot = s.slot := rfl
@[simp] theorem writeKey_err (idx : Fin 4) (w : Word) (s : State) : (writeKey idx w s).err = s.err := rfl
@[simp] theorem writeKey_sum (idx : Fin 4) (w : Word) (s : State) : (writeKey idx w s).sum = s.sum := rfl
@[simp] theorem writeKey_rnd (idx : Fin 4) (w : Word) (s : State) : (writeKey idx w s).rnd = s.rnd := rfl
@[simp] theorem writeKey_out (idx : Fin 4) (w : Word) (s : State) : (writeKey idx w s).out = s.out := rfl
@[simp] theorem writeKey_resp (idx : Fin 4) (w : Word) (s : State) : (writeKey idx w s).resp = s.resp := rfl
@[simp] theorem writeKey_inputs (idx : Fin 4) (w : Word) (s : State) : (writeKey idx w s).inputs = s.inputs := rfl
@[simp] theorem writeKey_freeTick (idx : Fin 4) (w : Word) (s : State) : (writeKey idx w s).freeTick = s.freeTick := rfl

/-! ### `writeData` -/

@[simp] theorem writeData_k (idx : Fin 2) (w : Word) (s : State) : (writeData idx w s).k = s.k := rfl
@[simp] theorem writeData_kv (idx : Fin 2) (w : Word) (s : State) : (writeData idx w s).kv = s.kv := rfl
@[simp] theorem writeData_v (idx : Fin 2) (w : Word) (s : State) : (writeData idx w s).v = s.v.set idx w := rfl
@[simp] theorem writeData_cb (idx : Fin 2) (w : Word) (s : State) : (writeData idx w s).cb = s.cb := rfl
@[simp] theorem writeData_cn (idx : Fin 2) (w : Word) (s : State) : (writeData idx w s).cn = s.cn := rfl
@[simp] theorem writeData_slot (idx : Fin 2) (w : Word) (s : State) : (writeData idx w s).slot = s.slot := rfl
@[simp] theorem writeData_err (idx : Fin 2) (w : Word) (s : State) : (writeData idx w s).err = s.err := rfl
@[simp] theorem writeData_sum (idx : Fin 2) (w : Word) (s : State) : (writeData idx w s).sum = s.sum := rfl
@[simp] theorem writeData_rnd (idx : Fin 2) (w : Word) (s : State) : (writeData idx w s).rnd = s.rnd := rfl
@[simp] theorem writeData_out (idx : Fin 2) (w : Word) (s : State) : (writeData idx w s).out = s.out := rfl
@[simp] theorem writeData_resp (idx : Fin 2) (w : Word) (s : State) : (writeData idx w s).resp = s.resp := rfl
@[simp] theorem writeData_inputs (idx : Fin 2) (w : Word) (s : State) : (writeData idx w s).inputs = s.inputs := rfl
@[simp] theorem writeData_freeTick (idx : Fin 2) (w : Word) (s : State) : (writeData idx w s).freeTick = s.freeTick := rfl

/-! ### `writePair` -/

@[simp] theorem writePair_k (v0 v1 : Word) (s : State) : (writePair v0 v1 s).k = s.k := rfl
@[simp] theorem writePair_kv (v0 v1 : Word) (s : State) : (writePair v0 v1 s).kv = s.kv := rfl
@[simp] theorem writePair_v (v0 v1 : Word) (s : State) : (writePair v0 v1 s).v = #v[v0, v1] := rfl
@[simp] theorem writePair_cb (v0 v1 : Word) (s : State) : (writePair v0 v1 s).cb = s.cb := rfl
@[simp] theorem writePair_cn (v0 v1 : Word) (s : State) : (writePair v0 v1 s).cn = s.cn := rfl
@[simp] theorem writePair_slot (v0 v1 : Word) (s : State) : (writePair v0 v1 s).slot = s.slot := rfl
@[simp] theorem writePair_err (v0 v1 : Word) (s : State) : (writePair v0 v1 s).err = s.err := rfl
@[simp] theorem writePair_sum (v0 v1 : Word) (s : State) : (writePair v0 v1 s).sum = s.sum := rfl
@[simp] theorem writePair_rnd (v0 v1 : Word) (s : State) : (writePair v0 v1 s).rnd = s.rnd := rfl
@[simp] theorem writePair_out (v0 v1 : Word) (s : State) : (writePair v0 v1 s).out = s.out := rfl
@[simp] theorem writePair_resp (v0 v1 : Word) (s : State) : (writePair v0 v1 s).resp = s.resp := rfl
@[simp] theorem writePair_inputs (v0 v1 : Word) (s : State) : (writePair v0 v1 s).inputs = s.inputs := rfl
@[simp] theorem writePair_freeTick (v0 v1 : Word) (s : State) : (writePair v0 v1 s).freeTick = s.freeTick := rfl

/-! ### `clearCount` -/

@[simp] theorem clearCount_k (s : State) : (clearCount s).k = s.k := rfl
@[simp] theorem clearCount_kv (s : State) : (clearCount s).kv = s.kv := rfl
@[simp] theorem clearCount_v (s : State) : (clearCount s).v = s.v := rfl
@[simp] theorem clearCount_cb (s : State) : (clearCount s).cb = s.cb := rfl
@[simp] theorem clearCount_cn (s : State) : (clearCount s).cn = 0 := rfl
@[simp] theorem clearCount_slot (s : State) : (clearCount s).slot = s.slot := rfl
@[simp] theorem clearCount_err (s : State) : (clearCount s).err = s.err := rfl
@[simp] theorem clearCount_sum (s : State) : (clearCount s).sum = s.sum := rfl
@[simp] theorem clearCount_rnd (s : State) : (clearCount s).rnd = s.rnd := rfl
@[simp] theorem clearCount_out (s : State) : (clearCount s).out = s.out := rfl
@[simp] theorem clearCount_resp (s : State) : (clearCount s).resp = s.resp := rfl
@[simp] theorem clearCount_inputs (s : State) : (clearCount s).inputs = s.inputs := rfl
@[simp] theorem clearCount_freeTick (s : State) : (clearCount s).freeTick = s.freeTick := rfl

/-! ### `freePair` -/

@[simp] theorem freePair_k (s : State) : (freePair s).k = s.k := rfl
@[simp] theorem freePair_kv (s : State) : (freePair s).kv = s.kv := rfl
@[simp] theorem freePair_v (s : State) : (freePair s).v = s.v := rfl
@[simp] theorem freePair_cb (s : State) : (freePair s).cb = s.cb := rfl
@[simp] theorem freePair_cn (s : State) : (freePair s).cn = s.cn := rfl
@[simp] theorem freePair_slot (s : State) : (freePair s).slot = 0 := rfl
@[simp] theorem freePair_err (s : State) : (freePair s).err = s.err := rfl
@[simp] theorem freePair_sum (s : State) : (freePair s).sum = s.sum := rfl
@[simp] theorem freePair_rnd (s : State) : (freePair s).rnd = s.rnd := rfl
@[simp] theorem freePair_out (s : State) : (freePair s).out = s.out := rfl
@[simp] theorem freePair_resp (s : State) : (freePair s).resp = s.resp := rfl
@[simp] theorem freePair_inputs (s : State) : (freePair s).inputs = s.inputs := rfl
@[simp] theorem freePair_freeTick (s : State) : (freePair s).freeTick = s.freeTick := rfl

/-! ### `recordError` -/

@[simp] theorem recordError_k (e : CoreError) (s : State) : (recordError e s).k = s.k := rfl
@[simp] theorem recordError_kv (e : CoreError) (s : State) : (recordError e s).kv = s.kv := rfl
@[simp] theorem recordError_v (e : CoreError) (s : State) : (recordError e s).v = s.v := rfl
@[simp] theorem recordError_cb (e : CoreError) (s : State) : (recordError e s).cb = s.cb := rfl
@[simp] theorem recordError_cn (e : CoreError) (s : State) : (recordError e s).cn = s.cn := rfl
@[simp] theorem recordError_slot (e : CoreError) (s : State) : (recordError e s).slot = s.slot := rfl
@[simp] theorem recordError_err (e : CoreError) (s : State) : (recordError e s).err = s.err ||| errorBit e := rfl
@[simp] theorem recordError_sum (e : CoreError) (s : State) : (recordError e s).sum = s.sum := rfl
@[simp] theorem recordError_rnd (e : CoreError) (s : State) : (recordError e s).rnd = s.rnd := rfl
@[simp] theorem recordError_out (e : CoreError) (s : State) : (recordError e s).out = s.out := rfl
@[simp] theorem recordError_resp (e : CoreError) (s : State) : (recordError e s).resp = s.resp := rfl
@[simp] theorem recordError_inputs (e : CoreError) (s : State) : (recordError e s).inputs = s.inputs := rfl
@[simp] theorem recordError_freeTick (e : CoreError) (s : State) : (recordError e s).freeTick = s.freeTick := rfl

/-! ### `markKeyValid` -/

@[simp] theorem markKeyValid_k (idx : Fin 4) (s : State) : (markKeyValid idx s).k = s.k := rfl
@[simp] theorem markKeyValid_kv (idx : Fin 4) (s : State) : (markKeyValid idx s).kv = s.kv ||| BitVec.twoPow 4 idx := rfl
@[simp] theorem markKeyValid_v (idx : Fin 4) (s : State) : (markKeyValid idx s).v = s.v := rfl
@[simp] theorem markKeyValid_cb (idx : Fin 4) (s : State) : (markKeyValid idx s).cb = s.cb := rfl
@[simp] theorem markKeyValid_cn (idx : Fin 4) (s : State) : (markKeyValid idx s).cn = s.cn := rfl
@[simp] theorem markKeyValid_slot (idx : Fin 4) (s : State) : (markKeyValid idx s).slot = s.slot := rfl
@[simp] theorem markKeyValid_err (idx : Fin 4) (s : State) : (markKeyValid idx s).err = s.err := rfl
@[simp] theorem markKeyValid_sum (idx : Fin 4) (s : State) : (markKeyValid idx s).sum = s.sum := rfl
@[simp] theorem markKeyValid_rnd (idx : Fin 4) (s : State) : (markKeyValid idx s).rnd = s.rnd := rfl
@[simp] theorem markKeyValid_out (idx : Fin 4) (s : State) : (markKeyValid idx s).out = s.out := rfl
@[simp] theorem markKeyValid_resp (idx : Fin 4) (s : State) : (markKeyValid idx s).resp = s.resp := rfl
@[simp] theorem markKeyValid_inputs (idx : Fin 4) (s : State) : (markKeyValid idx s).inputs = s.inputs := rfl
@[simp] theorem markKeyValid_freeTick (idx : Fin 4) (s : State) : (markKeyValid idx s).freeTick = s.freeTick := rfl

/-! ### `addResponse` -/

@[simp] theorem addResponse_k (st : BitVec 4) (data : Word) (s : State) : (addResponse st data s).k = s.k := rfl
@[simp] theorem addResponse_kv (st : BitVec 4) (data : Word) (s : State) : (addResponse st data s).kv = s.kv := rfl
@[simp] theorem addResponse_v (st : BitVec 4) (data : Word) (s : State) : (addResponse st data s).v = s.v := rfl
@[simp] theorem addResponse_cb (st : BitVec 4) (data : Word) (s : State) : (addResponse st data s).cb = s.cb := rfl
@[simp] theorem addResponse_cn (st : BitVec 4) (data : Word) (s : State) : (addResponse st data s).cn = s.cn := rfl
@[simp] theorem addResponse_slot (st : BitVec 4) (data : Word) (s : State) : (addResponse st data s).slot = s.slot := rfl
@[simp] theorem addResponse_err (st : BitVec 4) (data : Word) (s : State) : (addResponse st data s).err = s.err := rfl
@[simp] theorem addResponse_sum (st : BitVec 4) (data : Word) (s : State) : (addResponse st data s).sum = s.sum := rfl
@[simp] theorem addResponse_rnd (st : BitVec 4) (data : Word) (s : State) : (addResponse st data s).rnd = s.rnd := rfl
@[simp] theorem addResponse_out (st : BitVec 4) (data : Word) (s : State) : (addResponse st data s).out = s.out := rfl
@[simp] theorem addResponse_resp (st : BitVec 4) (data : Word) (s : State) : (addResponse st data s).resp = s.resp ++ [⟨st, data⟩] := rfl
@[simp] theorem addResponse_inputs (st : BitVec 4) (data : Word) (s : State) : (addResponse st data s).inputs = s.inputs := rfl
@[simp] theorem addResponse_freeTick (st : BitVec 4) (data : Word) (s : State) : (addResponse st data s).freeTick = s.freeTick := rfl

/-! ### `addOutput` -/

@[simp] theorem addOutput_k (bs : List Byte) (s : State) : (addOutput bs s).k = s.k := rfl
@[simp] theorem addOutput_kv (bs : List Byte) (s : State) : (addOutput bs s).kv = s.kv := rfl
@[simp] theorem addOutput_v (bs : List Byte) (s : State) : (addOutput bs s).v = s.v := rfl
@[simp] theorem addOutput_cb (bs : List Byte) (s : State) : (addOutput bs s).cb = s.cb := rfl
@[simp] theorem addOutput_cn (bs : List Byte) (s : State) : (addOutput bs s).cn = s.cn := rfl
@[simp] theorem addOutput_slot (bs : List Byte) (s : State) : (addOutput bs s).slot = s.slot := rfl
@[simp] theorem addOutput_err (bs : List Byte) (s : State) : (addOutput bs s).err = s.err := rfl
@[simp] theorem addOutput_sum (bs : List Byte) (s : State) : (addOutput bs s).sum = s.sum := rfl
@[simp] theorem addOutput_rnd (bs : List Byte) (s : State) : (addOutput bs s).rnd = s.rnd := rfl
@[simp] theorem addOutput_out (bs : List Byte) (s : State) : (addOutput bs s).out = s.out ++ bs := rfl
@[simp] theorem addOutput_resp (bs : List Byte) (s : State) : (addOutput bs s).resp = s.resp := rfl
@[simp] theorem addOutput_inputs (bs : List Byte) (s : State) : (addOutput bs s).inputs = s.inputs := rfl
@[simp] theorem addOutput_freeTick (bs : List Byte) (s : State) : (addOutput bs s).freeTick = s.freeTick := rfl

/-! ### `resetCore` -/

@[simp] theorem resetCore_k (s : State) : (resetCore s).k = Vector.replicate 4 0#32 := rfl
@[simp] theorem resetCore_kv (s : State) : (resetCore s).kv = 0#4 := rfl
@[simp] theorem resetCore_v (s : State) : (resetCore s).v = Vector.replicate 2 0#32 := rfl
@[simp] theorem resetCore_cb (s : State) : (resetCore s).cb = Vector.replicate 3 0#8 := rfl
@[simp] theorem resetCore_cn (s : State) : (resetCore s).cn = 0 := rfl
@[simp] theorem resetCore_slot (s : State) : (resetCore s).slot = 0 := rfl
@[simp] theorem resetCore_err (s : State) : (resetCore s).err = 0#3 := rfl
@[simp] theorem resetCore_sum (s : State) : (resetCore s).sum = Config.freeSum s.freeTick := rfl
@[simp] theorem resetCore_rnd (s : State) : (resetCore s).rnd = Config.freeRnd s.freeTick := rfl
@[simp] theorem resetCore_out (s : State) : (resetCore s).out = s.out := rfl
@[simp] theorem resetCore_resp (s : State) : (resetCore s).resp = s.resp := rfl
@[simp] theorem resetCore_inputs (s : State) : (resetCore s).inputs = s.inputs := rfl
@[simp] theorem resetCore_freeTick (s : State) : (resetCore s).freeTick = s.freeTick + 1 := rfl

/-! ### `writeCipherState` -/

@[simp] theorem writeCipherState_k (r : CipherState) (s : State) : (writeCipherState r s).k = s.k := rfl
@[simp] theorem writeCipherState_kv (r : CipherState) (s : State) : (writeCipherState r s).kv = s.kv := rfl
@[simp] theorem writeCipherState_v (r : CipherState) (s : State) : (writeCipherState r s).v = #v[r.v0, r.v1] := rfl
@[simp] theorem writeCipherState_cb (r : CipherState) (s : State) : (writeCipherState r s).cb = s.cb := rfl
@[simp] theorem writeCipherState_cn (r : CipherState) (s : State) : (writeCipherState r s).cn = s.cn := rfl
@[simp] theorem writeCipherState_slot (r : CipherState) (s : State) : (writeCipherState r s).slot = s.slot := rfl
@[simp] theorem writeCipherState_err (r : CipherState) (s : State) : (writeCipherState r s).err = s.err := rfl
@[simp] theorem writeCipherState_sum (r : CipherState) (s : State) : (writeCipherState r s).sum = r.sum := rfl
@[simp] theorem writeCipherState_rnd (r : CipherState) (s : State) : (writeCipherState r s).rnd = Fin.ofNat 33 Config.rounds := rfl
@[simp] theorem writeCipherState_out (r : CipherState) (s : State) : (writeCipherState r s).out = s.out := rfl
@[simp] theorem writeCipherState_resp (r : CipherState) (s : State) : (writeCipherState r s).resp = s.resp := rfl
@[simp] theorem writeCipherState_inputs (r : CipherState) (s : State) : (writeCipherState r s).inputs = s.inputs := rfl
@[simp] theorem writeCipherState_freeTick (r : CipherState) (s : State) : (writeCipherState r s).freeTick = s.freeTick := rfl

/-! ### `storeByte` -/

@[simp] theorem storeByte_k (b : Byte) (s : State) : (storeByte b s).k = s.k := by
  unfold storeByte; split <;> rfl
@[simp] theorem storeByte_kv (b : Byte) (s : State) : (storeByte b s).kv = s.kv := by
  unfold storeByte; split <;> rfl
@[simp] theorem storeByte_v (b : Byte) (s : State) : (storeByte b s).v = s.v := by
  unfold storeByte; split <;> rfl
@[simp] theorem storeByte_slot (b : Byte) (s : State) : (storeByte b s).slot = s.slot := by
  unfold storeByte; split <;> rfl
@[simp] theorem storeByte_err (b : Byte) (s : State) : (storeByte b s).err = s.err := by
  unfold storeByte; split <;> rfl
@[simp] theorem storeByte_sum (b : Byte) (s : State) : (storeByte b s).sum = s.sum := by
  unfold storeByte; split <;> rfl
@[simp] theorem storeByte_rnd (b : Byte) (s : State) : (storeByte b s).rnd = s.rnd := by
  unfold storeByte; split <;> rfl
@[simp] theorem storeByte_out (b : Byte) (s : State) : (storeByte b s).out = s.out := by
  unfold storeByte; split <;> rfl
@[simp] theorem storeByte_resp (b : Byte) (s : State) : (storeByte b s).resp = s.resp := by
  unfold storeByte; split <;> rfl
@[simp] theorem storeByte_inputs (b : Byte) (s : State) : (storeByte b s).inputs = s.inputs := by
  unfold storeByte; split <;> rfl
@[simp] theorem storeByte_freeTick (b : Byte) (s : State) : (storeByte b s).freeTick = s.freeTick := by
  unfold storeByte; split <;> rfl

/-! ### `deliver` -/

@[simp] theorem deliver_k (c : Chunk) (s : State) : (deliver c s).k = s.k := by
  unfold deliver; split <;> rfl
@[simp] theorem deliver_kv (c : Chunk) (s : State) : (deliver c s).kv = s.kv := by
  unfold deliver; split <;> rfl
@[simp] theorem deliver_cb (c : Chunk) (s : State) : (deliver c s).cb = s.cb := by
  unfold deliver; split <;> rfl
@[simp] theorem deliver_cn (c : Chunk) (s : State) : (deliver c s).cn = s.cn := by
  unfold deliver; split <;> rfl
@[simp] theorem deliver_err (c : Chunk) (s : State) : (deliver c s).err = s.err := by
  unfold deliver; split <;> rfl
@[simp] theorem deliver_sum (c : Chunk) (s : State) : (deliver c s).sum = s.sum := by
  unfold deliver; split <;> rfl
@[simp] theorem deliver_rnd (c : Chunk) (s : State) : (deliver c s).rnd = s.rnd := by
  unfold deliver; split <;> rfl
@[simp] theorem deliver_out (c : Chunk) (s : State) : (deliver c s).out = s.out := by
  unfold deliver; split <;> rfl
@[simp] theorem deliver_resp (c : Chunk) (s : State) : (deliver c s).resp = s.resp := by
  unfold deliver; split <;> rfl
@[simp] theorem deliver_inputs (c : Chunk) (s : State) : (deliver c s).inputs = s.inputs := by
  unfold deliver; split <;> rfl
@[simp] theorem deliver_freeTick (c : Chunk) (s : State) : (deliver c s).freeTick = s.freeTick := by
  unfold deliver; split <;> rfl

end Sys2Proof.Machine
end

