-- ==== Sys2Proof/Laws/Ops.lean ====
section
/-! SUPPORT. One lemma for each shared operation that says all it can do, and one for the step. -/

namespace Sys2Proof.Machine

/-- `Resp(OK, data)` always leaves a next state. -/
@[simp] theorem respondOk_next_iff (data : Word) (s t : State) :
    respondOk data s = .next t ↔ t = addResponse 0#4 data s := by
  simp [respondOk, eq_comm]

/-- `raise E` always leaves a next state. -/
@[simp] theorem raise_next_iff (e : CoreError) (s t : State) :
    raise e s = .next t ↔ t = addResponse (errorCode e) 0#32 (recordError e s) := by
  simp [raise, eq_comm]

/-- `Deliver` into an empty pair. -/
theorem deliver_of_empty (c : Chunk) (s : State) (h : s.slot = 0) :
    deliver c s = { s with v := s.v.set 0 (encodeChunk c), slot := 1 } := by
  simp only [deliver, h]; rfl

/-- `Deliver` into a half-filled pair. -/
theorem deliver_of_half (c : Chunk) (s : State) (h : s.slot = 1) :
    deliver c s = { s with v := s.v.set 1 (encodeChunk c), slot := 2 } := by
  simp only [deliver, h]; rfl

/-- `Deliver` outside its use. -/
theorem deliver_of_full (c : Chunk) (s : State) (h : s.slot = 2) : deliver c s = s := by
  simp only [deliver, h]

/-- A stored byte goes to `CB[CN]`, and `CN` counts it. -/
theorem storeByte_of_lt (b : Byte) (s : State) (h : s.cn.val < 3) :
    storeByte b s = { s with cb := s.cb.set s.cn b, cn := ⟨s.cn.val + 1, by omega⟩ } := by
  obtain ⟨k, kv, v, cb, cn, slot, err, sum, rnd, out, resp, inputs, freeTick⟩ := s
  match cn, h with
  | 0, _ => rfl
  | 1, _ => rfl
  | 2, _ => rfl

/-- As many bytes wait as `CN` says. -/
@[simp] theorem pending_length (s : State) : (pending s).length = s.cn := by
  simp [pending]; omega

/-- Everything a step that goes on can have done: it idled, or it performed the host's next event. -/
theorem step_next_cases {s t : State} (h : step s = .next t) :
    (s.inputs = [] ∧ t = s) ∨ ∃ e rest, s.inputs = e :: rest ∧ perform e { s with inputs := rest } = .next t := by
  unfold step advance at h
  split at h
  · exact .inl ⟨‹_›, by simpa using h.symm⟩
  · exact .inr ⟨_, _, ‹_›, h⟩

/-- What each of the host's events leads to. -/
theorem perform_next_cases {e : HostEvent} {s t : State} (h : perform e s = .next t) :
    (∃ c i, e = .command c ∧ decode c = .ok i ∧ exec i s = .next t)
      ∨ (∃ c r, e = .command c ∧ decode c = .error r ∧ t = addResponse 1#4 0#32 (recordError .illegal s))
      ∨ (e = .reset ∧ t = resetCore s)
      ∨ (∃ c taken, e = .resetDuring c taken ∧ t = abandonCommand c taken s) := by
  cases e with
  | command c =>
    simp only [perform, performCommand] at h
    split at h
    · exact .inl ⟨c, _, rfl, ‹_›, h⟩
    · exact .inr (.inl ⟨c, _, rfl, ‹_›, (raise_next_iff _ _ _).1 h⟩)
  | reset => exact .inr (.inr (.inl ⟨rfl, by simpa [perform] using h.symm⟩))
  | resetDuring c taken => exact .inr (.inr (.inr ⟨c, taken, rfl, by simpa [perform] using h.symm⟩))
  | emitStalled taken => simp [perform] at h

end Sys2Proof.Machine
end

