-- ==== Sys2Proof/Laws/PerInstr.lean ====
section
/-! SUPPORT. Laws stated for every command, one lemma a constructor. -/

namespace Sys2Proof.Laws.EncodingRow

/-- The word of a command is in that command's row of the opcode map (30_encoding.md R74). -/
def Statement (i : Instr) : Prop := selectsRow (encode i) i

/-- A mask that covers the whole opcode but an index field, and none of the immediate. -/
theorem select_word_row (op opMask opMatch : BitVec 8) (imm : Word) (h : op &&& opMask = opMatch) :
    catCommand op imm &&& (opMask ++ 0#32) = opMatch ++ 0#32 := by
  rw [catCommand, BitVec.and_append, h, BitVec.and_zero]

theorem wrk (idx : Fin 4) (w : Word) : Statement (.wrk idx w) :=
  select_word_row (0b000100#6 ++ BitVec.ofFin (w := 2) idx) 0xFC#8 0x10#8 w (by revert idx; decide)

theorem wrv (idx : Fin 2) (w : Word) : Statement (.wrv idx w) :=
  select_word_row (0b0010000#7 ++ BitVec.ofFin (w := 1) idx) 0xFE#8 0x20#8 w (by revert idx; decide)

theorem rdv (idx : Fin 2) : Statement (.rdv idx) := by
  revert idx; unfold Statement; decide

theorem rdst : Statement .rdst := by unfold Statement; decide

theorem rst : Statement .rst := by unfold Statement; decide

theorem pushb (b : Byte) : Statement (.pushb b) := by
  have h : (0x40#8 ++ (0#24 ++ b) : BitVec 40) &&& (0xFF#8 ++ (0xFFFFFF#24 ++ 0#8)) = 0x40#8 ++ (0#24 ++ 0#8) := by
    rw [BitVec.and_append, BitVec.and_append, BitVec.and_zero]; rfl
  exact h

theorem eot : Statement .eot := by unfold Statement; decide

theorem emit : Statement .emit := by unfold Statement; decide

theorem enc : Statement .enc := by unfold Statement; decide

theorem dec : Statement .dec := by unfold Statement; decide

end Sys2Proof.Laws.EncodingRow
end

