-- ==== Sys2Proof/Tests/Slice0.lean ====
section
/-! SUPPORT. The model's own tests: expected values are those of 95_test_vectors.md (T, X and P numbers) or are written out from
the rules named, and the witnesses that meet the hypotheses of the statements. -/

namespace Sys2Proof.Tests

open Sys2Proof.Machine

/-! ### Helpers -/

/-- The reference key `KREF` of 95_test_vectors.md. -/
def kref : Key := #v[0x54D17D25, 0x750A6435, 0x64E99741, 0x88ACA2AB]

/-- The core under `KREF` with `"Haku"`, `"na M"` in the pair, `cn` of the bytes `"abc"` waiting and `slot` chunks delivered. -/
def core (cn : Fin 4) (slot : Fin 3) : State :=
  { State.reset with k := kref, kv := 0b1111#4, v := #v[0x48616B75, 0x6E61204D], cb := #v[0x61, 0x62, 0x63], cn := cn, slot := slot }

/-- The core with the words `cs` presented. -/
def presented (s : State) (cs : List CommandWord) : State := { s with inputs := cs.map .command }

/-- A view of the state a result leaves, if it leaves one. -/
def view {α : Type} (f : State → α) (o : Result) : Option α :=
  match o with
  | .next s => some (f s)
  | _ => none

/-- The response a command gave. -/
def answer (o : Result) : Option Response := (view (fun s => s.resp.getLast?) o).join

/-- A source line of the assembler. -/
def line (l : String) : Option (List CommandWord) := assembleLine l.toList

/-! ### WellFormed: an ill-formed term for each check, and the assembler that uses them (R79, R80) -/

theorem test_wf_key_index : (AsmLine.wrk 4 0).wf = false := by decide
theorem test_wf_data_index : (AsmLine.wrv 2 0).wf = false ∧ (AsmLine.rdv 2).wf = false := by decide
theorem test_wf_byte : (AsmLine.pushb 256).wf = false ∧ (AsmLine.pushs [0x61, 256]).wf = false := by decide
theorem test_wf_word : (AsmLine.wrk 3 (2 ^ 32)).wf = false ∧ (AsmLine.raw 0x60 (2 ^ 32)).wf = false := by decide
theorem test_wf_boundaries : (AsmLine.wrk 3 (2 ^ 32 - 1)).wf ∧ (AsmLine.pushb 255).wf ∧ (AsmLine.rdv 1).wf := by decide

/-- Program P1's `KEY` line, T60 to T63. -/
theorem test_assemble_key : line "KEY 1423015205, 1963615285, 1693030209, 2293015211 ; KREF"
    = some [0x1054D17D25#40, 0x11750A6435#40, 0x1264E99741#40, 0x1388ACA2AB#40] := by decide
/-- T68, T6D, and program P5's `RAW`. -/
theorem test_assemble_bytes : line "PUSHB 'H'" = some [0x4000000048#40] ∧ line "RAW 0x40, 0x100" = some [0x4000000100#40]
    ∧ line "PUSHS \"a;\" ; two bytes" = some [0x4000000061#40, 0x400000003B#40] := by decide
/-- R79's range check, an unknown mnemonic, and log entry 12's choice for the `op` of `RAW`. -/
theorem test_assemble_rejects : line "RAW 'a', 0" = none ∧ line "WRK 4, 0" = none ∧ line "PUSHB 0x100" = none ∧ line "HALT" = none := by decide

/-! ### Decode: words written out bit by bit from the patterns of R74 -/

theorem test_decode_wrk : decode 0b00010011_10001000_10101100_10100010_10101011#40 = .ok (.wrk 3 0x88ACA2AB#32) := by decide
theorem test_decode_wrv : decode 0b00100001_01101110_01100001_00100000_01001101#40 = .ok (.wrv 1 0x6E61204D#32) := by decide
theorem test_decode_rdv : decode 0b00101001_00000000_00000000_00000000_00000000#40 = .ok (.rdv 1) := by decide
theorem test_decode_rdst : decode 0b00110000_00000000_00000000_00000000_00000000#40 = .ok .rdst := by decide
theorem test_decode_rst : decode 0b00111111_00000000_00000000_00000000_00000000#40 = .ok .rst := by decide
theorem test_decode_pushb : decode 0b01000000_00000000_00000000_00000000_11111111#40 = .ok (.pushb 0xFF#8) := by decide
theorem test_decode_eot : decode 0b01000001_00000000_00000000_00000000_00000000#40 = .ok .eot := by decide
theorem test_decode_emit : decode 0b01010000_00000000_00000000_00000000_00000000#40 = .ok .emit := by decide
theorem test_decode_enc : decode 0b01100000_00000000_00000000_00000000_00000000#40 = .ok .enc := by decide
theorem test_decode_dec : decode 0b01100001_00000000_00000000_00000000_00000000#40 = .ok .dec := by decide
/-- T6A to T6H. -/
theorem test_decode_illegal :
    [0x0000000000#40, 0xFFFFFFFFFF#40, 0x6000000001#40, 0x4000000100#40, 0x2A00000000#40, 0x1400000000#40, 0x2800000001#40,
      0x6200000000#40].map decode
    = [.error .unassignedOpcode, .error .unassignedOpcode, .error .nonzeroMustBeZero, .error .nonzeroMustBeZero,
      .error .unassignedOpcode, .error .unassignedOpcode, .error .nonzeroMustBeZero, .error .unassignedOpcode] := by decide
/-- T60, T65, T66, T68. -/
theorem test_encode : encode (.wrk 0 1423015205#32) = 0x1054D17D25#40 ∧ encode (.wrv 1 0x6E61204D#32) = 0x216E61204D#40
    ∧ encode (.rdv 1) = 0x2900000000#40 ∧ encode (.pushb 0x48#8) = 0x4000000048#40 := by decide
theorem test_table_word : decodeTableWord 40 0x6100000000 = some .dec ∧ decodeTableWord 40 0x6100000001 = none := by decide

/-! ### The functions of Layer F -/

/-- T31, T33, T36. -/
theorem test_mix : mix 0xFFFFFFFF#32 0x9E3779B9#32 0xFFFFFFFF#32 0xFFFFFFFF#32 = 0x663779A9#32
    ∧ mix 0x80000000#32 0#32 0#32 0#32 = 0x84000000#32 ∧ mix 0x20#32 0#32 0#32 0#32 = 0x221#32 := by decide
/-- T38, T3B. -/
theorem test_enc_round : encRound #v[0, 0, 0, 0] ⟨0, 0, 0⟩ = ⟨0x9E3779B9, 0xDBE8D32F, 0x9E3779B9⟩
    ∧ encRound kref ⟨0x48616B75, 0x6E61204D, 0⟩ = ⟨0x9667E239, 0xE10820EC, 0x9E3779B9⟩ := by decide
/-- T3A, T3C. -/
theorem test_dec_round : decRound #v[0, 0, 0, 0] ⟨0, 0, 0xC6EF3720⟩ = ⟨0x6F3BF7B9, 0x3910C8E0, 0x28B7BD67⟩
    ∧ decRound kref ⟨0x9667E239, 0xE10820EC, 0x9E3779B9⟩ = ⟨0x48616B75, 0x6E61204D, 0⟩ := by decide
/-- T21, T25. -/
theorem test_encrypt : encrypt 0#32 0#32 #v[0, 0, 0, 0] = (0x41EA3A0A#32, 0x94BAA940#32)
    ∧ encrypt 0x01234567#32 0x89ABCDEF#32 #v[0x00112233, 0x44556677, 0x8899AABB, 0xCCDDEEFF] = (0x126C6B92#32, 0xC0653A3E#32) := by decide
/-- T21, T25. -/
theorem test_decrypt : decrypt 0#32 0#32 #v[0, 0, 0, 0] = (0x1423FF6D#32, 0x9216EF3A#32)
    ∧ decrypt 0x01234567#32 0x89ABCDEF#32 #v[0x00112233, 0x44556677, 0x8899AABB, 0xCCDDEEFF] = (0xBF467633#32, 0x9D07A595#32) := by decide +kernel
/-- T14, T17, T18. -/
theorem test_codec : encodeChunk ⟨0x80, 0xFF, 0x00, 0x7F⟩ = 0x80FF007F#32 ∧ encodeChunk ⟨1, 2, 3, 4⟩ = 0x01020304#32
    ∧ chunkBytes (decodeWord 0xDEADBEEF#32) = [0xDE, 0xAD, 0xBE, 0xEF] := by decide
/-- T1, T3 (the source's X1), T4, T8. -/
theorem test_split : split [] = [] ∧ split [0x61, 0x62, 0x63, 0x64, 0x65] = [⟨0x61, 0x62, 0x63, 0x64⟩, ⟨0x65, 0x2E, 0x2E, 0x2E⟩]
    ∧ split [0x61, 0x62, 0x63, 0x64] = [⟨0x61, 0x62, 0x63, 0x64⟩]
    ∧ split [0x80, 0xFF, 0x00, 0x7F, 0x2E] = [⟨0x80, 0xFF, 0x00, 0x7F⟩, ⟨0x2E, 0x2E, 0x2E, 0x2E⟩] := by decide
/-- T46: "Hakuna Ma", three chunks. -/
theorem test_encrypt_text : encryptText [0x48, 0x61, 0x6B, 0x75, 0x6E, 0x61, 0x20, 0x4D, 0x61] kref
    = [0x11, 0xD7, 0x8A, 0x58, 0x42, 0xED, 0xBA, 0x26, 0xF5, 0x55, 0x94, 0x68, 0x53, 0x68, 0x18, 0x25] := by decide
/-- T43: "abcde" comes back as "abcde...". -/
theorem test_decrypt_text : decryptText [0xE5, 0x34, 0x36, 0x26, 0x6A, 0x26, 0x45, 0xFA] kref
    = [0x61, 0x62, 0x63, 0x64, 0x65, 0x2E, 0x2E, 0x2E] := by decide +kernel

/-! ### One step of each command -/

/-- R190: the example of its rule. -/
theorem test_wrk : view (fun t => (t.k, t.kv)) (exec (.wrk 3 2293015211#32) State.reset)
    = some (#v[0, 0, 0, 0x88ACA2AB], 0b1000#4) := by decide
/-- R191: the example of its rule; `SLOT` is not changed. -/
theorem test_wrv : view (fun t => (t.v, t.slot)) (exec (.wrv 1 0xDEADBEEF#32) (core 0 1))
    = some (#v[0x48616B75, 0xDEADBEEF], 1) := by decide
theorem test_rdv : answer (exec (.rdv 1) (core 0 0)) = some ⟨0, 0x6E61204D⟩ := by decide
/-- R193's example: `CN = 1`, `SLOT = 1`, `KV = 1111`. -/
theorem test_rdst : answer (exec .rdst (core 1 1)) = some ⟨0, 0x000000F5⟩ := by decide
/-- T72's and T74's status words. -/
theorem test_rdst_errors : answer (exec .rdst { core 0 2 with kv := 0b0111#4, err := 0b110#3 }) = some ⟨0, 0x00000678⟩
    ∧ answer (exec .rdst { core 0 2 with kv := 0b0111#4, err := 0b111#3 }) = some ⟨0, 0x00000778⟩ := by decide
theorem test_rst : view (fun t => decide (archZero t)) (exec .rst { core 2 1 with err := 7#3 }) = some true := by decide
theorem test_rst_keeps_output : view (fun t => (t.out, t.resp)) (exec .rst { core 2 1 with out := [0x61] })
    = some ([0x61], [⟨0, 0⟩]) := by decide
/-- T50: the third byte. -/
theorem test_pushb_stores : view (fun t => (t.cb, t.cn, t.v, t.resp)) (exec (.pushb 0x7A#8) (core 2 1))
    = some (#v[0x61, 0x62, 0x7A], 3, #v[0x48616B75, 0x6E61204D], [⟨0, 1⟩]) := by decide
/-- T51: the fourth byte. -/
theorem test_pushb_delivers : view (fun t => (t.cn, t.slot, t.v, t.resp)) (exec (.pushb 0x64#8) (core 3 0))
    = some (0, 1, #v[0x61626364, 0x6E61204D], [⟨0, 1⟩]) := by decide
/-- T54: both deliveries. -/
theorem test_eot_both : view (fun t => (t.cn, t.slot, t.v, t.resp)) (exec .eot (core 2 0))
    = some (0, 2, #v[0x61622E2E, 0x2E2E2E2E], [⟨0, 2⟩]) := by decide
/-- T52 and T55: the odd pair, and the pending chunk that completes it. -/
theorem test_eot_half : view (fun t => t.v) (exec .eot (core 0 1)) = some #v[0x48616B75, 0x2E2E2E2E]
    ∧ view (fun t => t.v) (exec .eot (core 3 1)) = some #v[0x48616B75, 0x6162632E] := by decide
/-- R124: the bytes of T20's plaintext, and the freed slot. -/
theorem test_emit : view (fun t => (t.out, t.slot)) (exec .emit { core 0 2 with out := [1] })
    = some ([1, 0x48, 0x61, 0x6B, 0x75, 0x6E, 0x61, 0x20, 0x4D], 0) := by decide
/-- T20. -/
theorem test_enc : view (fun t => (t.v, t.sum, t.rnd, t.slot)) (exec .enc (core 0 2))
    = some (#v[0x11D78A58, 0x42EDBA26], 0xC6EF3720, 32, 2) := by decide
/-- T20. -/
theorem test_dec : view (fun t => (t.v, t.sum)) (exec .dec { core 0 2 with v := #v[0x11D78A58, 0x42EDBA26] })
    = some (#v[0x48616B75, 0x6E61204D], 0) := by decide +kernel
/-- T70, T71: NOKEY with no key word, and with three. -/
theorem test_nokey : view (fun t => (t.err, t.resp, t.v)) (exec .enc State.reset) = some (0b010#3, [⟨2, 0⟩], #v[0, 0])
    ∧ view (fun t => (t.err, t.v)) (exec .dec { core 0 0 with kv := 0b0111#4 }) = some (0b010#3, #v[0x48616B75, 0x6E61204D]) := by decide
/-- T72: PAIRFULL, the byte dropped. -/
theorem test_pairfull : view (fun t => (t.err, t.resp, t.cn, t.v)) (exec (.pushb 0x69#8) (core 0 2))
    = some (0b100#3, [⟨3, 0⟩], 0, #v[0x48616B75, 0x6E61204D]) := by decide
/-- T73, T74: ILLEGAL comes first. -/
theorem test_illegal_first : view (fun t => (t.err, t.resp)) (step (presented State.reset [0x6000000001#40])) = some (0b001#3, [⟨1, 0⟩])
    ∧ view (fun t => (t.err, t.resp)) (step (presented (core 0 2) [0x4000000100#40])) = some (0b001#3, [⟨1, 0⟩]) := by decide
/-- R246: three bytes of an `EMIT` are out when reset comes. -/
theorem test_reset_during_emit :
    view (fun t => (t.out, t.resp, t.v)) (step { core 0 2 with inputs := [.resetDuring 0x5000000000#40 3] })
    = some ([0x48, 0x61, 0x6B], [], #v[0, 0]) := by decide
theorem test_fetch_word : view (fun t => t.resp) (step (State.reset.withFetchWord 40 0x3000000000)) = some [⟨0, 0⟩] := by decide
/-- T56 and T57 from reset: nothing pending, and eight zero bytes. -/
theorem test_from_reset : view (fun t => t.resp) (exec .eot State.reset) = some [⟨0, 0⟩]
    ∧ view (fun t => t.out) (exec .emit State.reset) = some [0, 0, 0, 0, 0, 0, 0, 0] := by decide

/-! ### Witnesses: states and operands that meet the hypotheses of the statements -/

/-- EveryStepKeepsInvariant, OutputsOnlyGrow: a step that fills the pair. -/
theorem witness_invariant_step : (presented (core 3 1) [0x4000000064#40]).Inv
    ∧ ∃ t, step (presented (core 3 1) [0x4000000064#40]) = .next t ∧ t.slot = 2 := ⟨by decide, _, rfl, by decide⟩
/-- EncodeOfDecode; DecodeFollowsOpcodeMap, its three clauses. -/
theorem witness_decode : decode 0x13FFFFFFFF#40 = .ok (.wrk 3 0xFFFFFFFF#32) ∧ decode 0x1400000000#40 = .error .unassignedOpcode
    ∧ selectsRow 0x40000000FF#40 (.pushb 0) ∧ selectsRow 0x40000000FF#40 (.pushb 1) := by decide
/-- AssemblerEmitsOnlyCommands, both clauses. -/
theorem witness_assemble : assemble (.blk 0 (2 ^ 32 - 1)) = some [0x2000000000#40, 0x21FFFFFFFF#40]
    ∧ (∀ op imm, AsmLine.blk 0 (2 ^ 32 - 1) ≠ .raw op imm) ∧ (AsmLine.rdv 2).wf = false := ⟨by decide, nofun, by decide⟩
/-- StepPerformsDecodedCommand, EveryCommandAnsweredOnce. -/
theorem witness_command : (presented (core 1 1) [0x6000000000#40, 0x5000000000#40]).inputs
      = .command 0x6000000000#40 :: [.command 0x5000000000#40]
    ∧ decode 0x6000000000#40 = .ok .enc := by decide
/-- IllegalCommandRaises: an unassigned `op`, an N-format word, a `PUSHB`, each just past a legal one. -/
theorem witness_illegal : illegalWord 0x1400000000#40 ∧ illegalWord 0x6100000001#40 ∧ illegalWord 0x4000000100#40
    ∧ ¬ illegalWord 0x13FFFFFFFF#40 ∧ ¬ illegalWord 0x6100000000#40 ∧ ¬ illegalWord 0x40000000FF#40
    ∧ (presented State.reset [0x1400000000#40]).inputs = [.command 0x1400000000#40] := by decide
/-- IdleStepHoldsState. -/
theorem witness_idle : State.reset.inputs = [] := by decide
/-- ResetInputZeroesTheCore. -/
theorem witness_reset_input : { core 2 1 with inputs := [.reset] }.inputs = .reset :: [] := by decide
/-- ResetDuringCommandAbandonsIt: an `EMIT` with no byte and with all eight bytes out, and a command that is no `EMIT`. -/
theorem witness_reset_during : { core 0 2 with inputs := [.resetDuring 0x5000000000#40 0] }.inputs = .resetDuring 0x5000000000#40 0 :: []
    ∧ { core 0 2 with inputs := [.resetDuring 0x5000000000#40 8] }.inputs = .resetDuring 0x5000000000#40 8 :: []
    ∧ { core 0 2 with inputs := [.resetDuring 0x6000000000#40 8] }.inputs = .resetDuring 0x6000000000#40 8 :: []
    ∧ decode 0x5000000000#40 = .ok .emit ∧ decode 0x6000000000#40 ≠ .ok .emit := by decide
/-- EmitNeverTakenStops: no byte, and all but one. -/
theorem witness_emit_stalled : { core 0 2 with inputs := [.emitStalled 0] }.inputs = .emitStalled 0 :: []
    ∧ { core 0 2 with inputs := [.emitStalled 7] }.inputs = .emitStalled 7 :: [] := by decide
/-- DeliverFillsNextSlot: both slots. -/
theorem witness_deliver : (core 0 0).slot < 2 ∧ (core 0 1).slot < 2 := by decide
/-- PushbStoresOrDelivers: the last byte stored, and the byte that delivers; into each slot. -/
theorem witness_pushb : (core 2 0).slot ≠ 2 ∧ (core 2 0).cn.val < 3 ∧ (core 3 1).slot ≠ 2 ∧ ¬ (core 3 1).cn.val < 3 := by decide
/-- PushbOnFullPairRaises. -/
theorem witness_pushb_full : (core 0 2).slot = 2 := by decide
/-- EotPadsAndCompletesThePair: its five clauses. -/
theorem witness_eot : ((core 0 0).slot = 0 ∧ (core 0 0).cn = 0) ∧ ((core 3 0).slot = 0 ∧ (core 3 0).cn ≠ 0)
    ∧ ((core 0 1).slot = 1 ∧ (core 0 1).cn = 0) ∧ ((core 1 1).slot = 1 ∧ (core 1 1).cn ≠ 0) ∧ (core 0 2).slot = 2 := by decide
/-- PushedBytesReadBackBigEndian, StreamPathComputesTheText. -/
theorem witness_ready : readyForText (core 0 0) := by decide
/-- EncEncryptsThePair, DecDecryptsThePair, CipherCommandsUndoEachOther, RoundEngineRefinesCipherCommands (first clause). -/
theorem witness_key_loaded : keyLoaded (core 0 2) := by decide
/-- RoundEngineRefinesCipherCommands, second clause. -/
theorem witness_engine_stopped : { core 0 2 with rnd := 32 }.rnd.val = 32 := by decide
/-- CipherNeedsTheWholeKey: no key word, one missing, and all four. -/
theorem witness_no_key : (∃ j : Fin 4, State.reset.kv.getLsbD j = false)
    ∧ (∃ j : Fin 4, { core 0 0 with kv := 0b0111#4 }.kv.getLsbD j = false)
    ∧ ∀ j : Fin 4, (core 0 0).kv.getLsbD j = true := by decide
/-- RoundSums: the last round. -/
theorem witness_round_sums : 32 ≤ 32 := by decide
/-- ChunkEncodingIsBigEndian, second clause. -/
theorem witness_chunk_injective : encodeChunk ⟨1, 2, 3, 4⟩ = encodeChunk (decodeWord 0x01020304#32) := by decide
/-- PadFillsToFourBytes: none, and four bytes. -/
theorem witness_pad : ([] : List Byte).length ≤ 4 ∧ ([1, 2, 3, 4] : List Byte).length ≤ 4 := by decide
/-- OnlyWrkAndRstWriteTheKey: a command that is no `WRK`, and a `WRK`. -/
theorem witness_key_writers : (∃ t, exec .enc (core 0 2) = .next t) ∧ Instr.enc ≠ .rst ∧ (∀ idx w, Instr.enc ≠ .wrk idx w)
    ∧ ∃ t, exec (.wrk 0 7#32) (core 0 2) = .next t := ⟨⟨_, rfl⟩, nofun, nofun, _, rfl⟩
/-- KeyIsNeverReadBack: two states with different keys. -/
theorem witness_key_hidden : keyHidden (core 1 1) = keyHidden { core 1 1 with k := #v[1, 2, 3, 4] }
    ∧ (core 1 1).k ≠ #v[1, 2, 3, 4] ∧ ∃ t, exec .rdst (core 1 1) = .next t := ⟨by decide, by decide, _, rfl⟩
/-- SlotWritersAreFew: `SLOT` raised, lowered, and cleared. -/
theorem witness_slot : (∃ t, exec .eot (core 0 1) = .next t ∧ (core 0 1).slot < t.slot)
    ∧ (∃ t, exec .emit (core 0 2) = .next t ∧ t.slot < (core 0 2).slot)
    ∧ ∃ t, exec .rst (core 0 0) = .next t ∧ t.slot = 0 := ⟨⟨_, rfl, by decide⟩, ⟨_, rfl, by decide⟩, _, rfl, rfl⟩
/-- ErrorBitsAreSticky: all three bits set. -/
theorem witness_sticky : (presented { core 0 0 with err := 7#3 } [0x5000000000#40]).inputs = .command 0x5000000000#40 :: []
    ∧ decode 0x5000000000#40 ≠ .ok .rst
    ∧ ∃ t, step (presented { core 0 0 with err := 7#3 } [0x5000000000#40]) = .next t := ⟨by decide, by decide, _, rfl⟩
/-- FailingCommandChangesOnlyItsBit: a PAIRFULL. -/
theorem witness_failing : ∃ t r, step (presented (core 0 2) [0x4000000069#40]) = .next t
    ∧ t.resp = (presented (core 0 2) [0x4000000069#40]).resp ++ [r] ∧ r.st ≠ 0#4 :=
  ⟨_, ⟨3, 0⟩, rfl, rfl, by decide⟩
/-- HiddenRegistersAreNeverObserved: two states that differ in `SUM` and `RND`. -/
theorem witness_hidden : visible (core 1 1) = visible { core 1 1 with sum := 5#32, rnd := 9, freeTick := 3 } := by decide

end Sys2Proof.Tests
end

/-! PROOFS. What a command does, said once for all ten: which error it raises, else which registers it changes and what data it
answers with. Every later fact about a command is a fact about these three functions. -/

namespace Sys2Proof.Machine

/-! ### The three parts of a command's meaning -/

/-- The error a command raises in a state, if it raises one (60_exceptions.md R212, R213). -/
def commandError : Instr → State → Option CoreError
  | .pushb _, s => if s.slot = 2 then some .pairFull else none
  | .enc, s => if keyLoaded s then none else some .noKey
  | .dec, s => if keyLoaded s then none else some .noKey
  | _, _ => none

/-- What a command that raises no error does to the registers and to `OUT`, its response apart. -/
def commandEffect : Instr → State → State
  | .wrk idx w, s => markKeyValid idx (writeKey idx w s)
  | .wrv idx w, s => writeData idx w s
  | .rdv _, s => s
  | .rdst, s => s
  | .rst, s => resetCore s
  | .pushb b, s => if s.cn < 3 then storeByte b s else clearCount (deliver (completedChunk b s) s)
  | .eot, s => if s.slot < 2 then completePair (flushPending s) else s
  | .emit, s => freePair (addOutput (pairBytes s.v[0] s.v[1]) s)
  | .enc, s => writeCipherState (encryptLoop s.k s.v[0] s.v[1]) s
  | .dec, s => writeCipherState (decryptLoop s.k s.v[0] s.v[1]) s

/-- The data of the response to a command that raises no error. -/
def commandData : Instr → State → Word
  | .rdv idx, s => readData idx s
  | .rdst, s => statusWord s
  | .pushb b, s => slotWord (commandEffect (.pushb b) s)
  | .eot, s => slotWord (commandEffect .eot s)
  | _, _ => 0#32

/-- The three functions are the model's `exec`: an error is raised, or else the command takes effect and is answered OK. -/
theorem exec_eq (i : Instr) (s : State) :
    exec i s = match commandError i s with
      | some e => raise e s
      | none => respondOk (commandData i s) (commandEffect i s) := by
  cases i with
  | pushb b => simp only [exec, execPushb, commandError]; split <;> rfl
  | enc => simp only [exec, execEnc, commandError]; split <;> rfl
  | dec => simp only [exec, execDec, commandError]; split <;> rfl
  | wrk | wrv | rdv | rdst | rst | eot | emit => rfl

theorem exec_of_error {i : Instr} {s : State} {e : CoreError} (h : commandError i s = some e) : exec i s = raise e s := by
  rw [exec_eq, h]

theorem exec_of_no_error {i : Instr} {s : State} (h : commandError i s = none) :
    exec i s = respondOk (commandData i s) (commandEffect i s) := by
  rw [exec_eq, h]

/-- Everything a command that leaves a next state can have done. -/
theorem exec_next_cases {i : Instr} {s t : State} (h : exec i s = .next t) :
    (∃ e, commandError i s = some e ∧ t = addResponse (errorCode e) 0#32 (recordError e s))
      ∨ (commandError i s = none ∧ t = addResponse 0#4 (commandData i s) (commandEffect i s)) := by
  cases he : commandError i s with
  | some e => exact .inl ⟨e, rfl, (raise_next_iff e s t).1 (exec_of_error he ▸ h)⟩
  | none => exact .inr ⟨rfl, (respondOk_next_iff _ _ t).1 (exec_of_no_error he ▸ h)⟩

/-! ### What `PUSHB` and `EOT` do to a register -/

/-- A register, or several, that no update of the splitter touches. -/
structure KeptBySplitter {α : Type} (f : State → α) : Prop where
  storeByte : ∀ b s, f (storeByte b s) = f s
  deliver : ∀ c s, f (deliver c s) = f s
  clearCount : ∀ s, f (clearCount s) = f s

theorem kv_keptBySplitter : KeptBySplitter State.kv := ⟨storeByte_kv, deliver_kv, clearCount_kv⟩
theorem k_keptBySplitter : KeptBySplitter State.k := ⟨storeByte_k, deliver_k, clearCount_k⟩
theorem err_keptBySplitter : KeptBySplitter State.err := ⟨storeByte_err, deliver_err, clearCount_err⟩
theorem out_keptBySplitter : KeptBySplitter State.out := ⟨storeByte_out, deliver_out, clearCount_out⟩
theorem resp_keptBySplitter : KeptBySplitter State.resp := ⟨storeByte_resp, deliver_resp, clearCount_resp⟩

theorem KeptBySplitter.pushb {α : Type} {f : State → α} (hf : KeptBySplitter f) (b : Byte) (s : State) :
    f (commandEffect (.pushb b) s) = f s := by
  simp only [commandEffect]
  split
  · exact hf.storeByte b s
  · rw [hf.clearCount, hf.deliver]

theorem KeptBySplitter.flushPending {α : Type} {f : State → α} (hf : KeptBySplitter f) (s : State) :
    f (flushPending s) = f s := by
  unfold Machine.flushPending
  split
  · rw [hf.clearCount, hf.deliver]
  · rfl

theorem KeptBySplitter.completePair {α : Type} {f : State → α} (hf : KeptBySplitter f) (s : State) :
    f (completePair s) = f s := by
  unfold Machine.completePair
  split
  · exact hf.deliver fillerChunk s
  · rfl

theorem KeptBySplitter.eot {α : Type} {f : State → α} (hf : KeptBySplitter f) (s : State) :
    f (commandEffect .eot s) = f s := by
  simp only [commandEffect]
  split
  · rw [hf.completePair, hf.flushPending]
  · rfl

/-- After `EOT`'s first part no byte waits (40_blocksplitter.md R106). -/
@[simp] theorem flushPending_cn (s : State) : (flushPending s).cn = 0 := by
  unfold flushPending
  split
  · rfl
  · simpa using ‹¬ 0 < s.cn›

@[simp] theorem completePair_cn (s : State) : (completePair s).cn = s.cn := by
  unfold completePair; split <;> simp

/-- `Deliver` never lowers `SLOT` (40_blocksplitter.md R104). -/
theorem slot_le_deliver (c : Chunk) (s : State) : s.slot ≤ (deliver c s).slot := by
  match h : s.slot with
  | 0 => simp
  | 1 => simp [deliver_of_half c s h]
  | 2 => simp [deliver_of_full c s h, h]

theorem slot_le_flushPending (s : State) : s.slot ≤ (flushPending s).slot := by
  unfold flushPending
  split
  · exact slot_le_deliver _ s
  · exact le_rfl

theorem slot_le_completePair (s : State) : s.slot ≤ (completePair s).slot := by
  unfold completePair
  split
  · exact slot_le_deliver _ s
  · exact le_rfl

theorem slot_le_pushb (b : Byte) (s : State) : s.slot ≤ (commandEffect (.pushb b) s).slot := by
  simp only [commandEffect]
  split
  · exact (storeByte_slot b s).ge
  · exact slot_le_deliver _ s

theorem slot_le_eot (s : State) : s.slot ≤ (commandEffect .eot s).slot := by
  simp only [commandEffect]
  split
  · exact (slot_le_flushPending s).trans (slot_le_completePair _)
  · exact le_rfl

/-! ### What a command keeps, register by register -/

/-- 10_state.md R21, R22. -/
theorem commandEffect_keepsKey {i : Instr} (s : State) (hwrk : ∀ idx w, i ≠ .wrk idx w) (hrst : i ≠ .rst) :
    keyKept s (commandEffect i s) := by
  cases i with
  | wrk idx w => exact absurd rfl (hwrk idx w)
  | rst => exact absurd rfl hrst
  | pushb b => exact ⟨k_keptBySplitter.pushb b s, kv_keptBySplitter.pushb b s⟩
  | eot => exact ⟨k_keptBySplitter.eot s, kv_keptBySplitter.eot s⟩
  | wrv | rdv | rdst | emit | enc | dec => exact ⟨rfl, rfl⟩

/-- 10_state.md R26: a command that raises nothing keeps `ERR`, unless it resets the core. -/
theorem commandEffect_keepsErrors {i : Instr} (s : State) (hrst : i ≠ .rst) : errorsKept s (commandEffect i s) := by
  cases i with
  | rst => exact absurd rfl hrst
  | pushb b => exact err_keptBySplitter.pushb b s
  | eot => exact err_keptBySplitter.eot s
  | wrk | wrv | rdv | rdst | emit | enc | dec => rfl

/-- 10_state.md R30: only `EMIT` puts bytes out. -/
theorem commandEffect_keepsOutput {i : Instr} (s : State) (hemit : i ≠ .emit) : outputKept s (commandEffect i s) := by
  cases i with
  | emit => exact absurd rfl hemit
  | pushb b => exact out_keptBySplitter.pushb b s
  | eot => exact out_keptBySplitter.eot s
  | wrk | wrv | rdv | rdst | rst | enc | dec => rfl

/-- The effect of a command gives no response; `exec` appends the one response after it. -/
@[simp] theorem commandEffect_resp (i : Instr) (s : State) : (commandEffect i s).resp = s.resp := by
  cases i with
  | pushb b => exact resp_keptBySplitter.pushb b s
  | eot => exact resp_keptBySplitter.eot s
  | wrk | wrv | rdv | rdst | rst | emit | enc | dec => rfl

end Sys2Proof.Machine

/-! PROOFS. The invariant of the core is kept by every step (10_state.md R31, 30_encoding.md R77). -/

namespace Sys2Proof.Machine

/-! ### The invariant under each operation -/

theorem errorCode_wellFormed (e : CoreError) : wellFormedResponse ⟨errorCode e, 0#32⟩ := by
  cases e <;> decide

theorem okResponse_wellFormed (data : Word) : wellFormedResponse ⟨0#4, data⟩ :=
  ⟨Nat.zero_le 3, fun h => absurd rfl h⟩

/-- A well-formed response keeps the invariant. -/
theorem State.Inv.addResponse {s : State} (hs : s.Inv) {st : BitVec 4} {data : Word} (hr : wellFormedResponse ⟨st, data⟩) :
    (addResponse st data s).Inv := by
  obtain ⟨hpair, hkeys, hresp⟩ := hs
  refine ⟨hpair, hkeys, fun r hmem => ?_⟩
  rw [addResponse_resp, List.mem_append, List.mem_singleton] at hmem
  obtain hold | rfl := hmem
  · exact hresp r hold
  · exact hr

/-- Raising an error keeps the invariant: it writes `ERR` and a well-formed response. -/
theorem State.Inv.raise {s : State} (hs : s.Inv) (e : CoreError) :
    (Machine.addResponse (errorCode e) 0#32 (recordError e s)).Inv :=
  State.Inv.addResponse (s := recordError e s) hs (errorCode_wellFormed e)

/-- Reset restores the invariant but for the responses, which it keeps. -/
theorem inv_resetCore {s : State} (hresp : responsesWellFormed s) : (resetCore s).Inv :=
  ⟨fun _ => rfl, fun idx _ => by simp, hresp⟩

/-- `WRK` sets the valid bit of the key word that it writes, and writes no other (44_host_access.md R190). -/
theorem unwrittenKeysAreZero_wrk {s : State} (hs : unwrittenKeysAreZero s) (idx : Fin 4) (w : Word) :
    unwrittenKeysAreZero (markKeyValid idx (writeKey idx w s)) := by
  intro j hj
  simp only [markKeyValid_kv, writeKey_kv, BitVec.getLsbD_or, Bool.or_eq_false_iff, BitVec.getLsbD_twoPow] at hj
  obtain ⟨hold, hne⟩ := hj
  have hidx : idx.val ≠ j.val := by simpa using hne
  simpa [Vector.getElem_set_ne, hidx] using hs j hold

/-- Every command keeps the rule of the key: `WRK` as it writes both, reset as it zeroes both, the others as they keep both. -/
theorem unwrittenKeysAreZero_commandEffect {s : State} (hs : unwrittenKeysAreZero s) (i : Instr) :
    unwrittenKeysAreZero (commandEffect i s) := by
  by_cases hrst : i = .rst
  · subst hrst
    intro idx _
    simp [commandEffect]
  by_cases hwrk : ∃ idx w, i = .wrk idx w
  · obtain ⟨idx, w, rfl⟩ := hwrk
    exact unwrittenKeysAreZero_wrk hs idx w
  · obtain ⟨hk, hkv⟩ := commandEffect_keepsKey s (fun idx w h => hwrk ⟨idx, w, h⟩) hrst
    intro idx
    rw [hk, hkv]
    exact hs idx

/-- A pushed byte is stored only beside a pair that is not full; otherwise it completes a chunk and none waits
(40_blocksplitter.md R105). -/
theorem fullPairHasNoPending_pushb {s : State} (b : Byte) (hnotFull : s.slot ≠ 2) :
    fullPairHasNoPending (commandEffect (.pushb b) s) := by
  simp only [commandEffect]
  split
  · exact fun hfull => absurd (storeByte_slot b s ▸ hfull) hnotFull
  · exact fun _ => clearCount_cn _

/-- `EOT` leaves no byte waiting, or it finds the pair full and changes nothing (40_blocksplitter.md R106). -/
theorem fullPairHasNoPending_eot {s : State} (hs : fullPairHasNoPending s) :
    fullPairHasNoPending (commandEffect .eot s) := by
  simp only [commandEffect]
  split
  · exact fun _ => (completePair_cn _).trans (flushPending_cn s)
  · exact hs

/-- `PUSHB` raises PAIRFULL on a full pair (60_exceptions.md R213). -/
theorem slot_ne_two_of_pushb_noError {b : Byte} {s : State} (h : commandError (.pushb b) s = none) : s.slot ≠ 2 := by
  intro hfull
  simp [commandError, hfull] at h

theorem fullPairHasNoPending_commandEffect {i : Instr} {s : State} (hs : fullPairHasNoPending s)
    (hok : commandError i s = none) : fullPairHasNoPending (commandEffect i s) := by
  cases i with
  | pushb b => exact fullPairHasNoPending_pushb b (slot_ne_two_of_pushb_noError hok)
  | eot => exact fullPairHasNoPending_eot hs
  | emit => exact fun hfull => absurd hfull (by simp [commandEffect])
  | rst => exact fun _ => rfl
  | wrk | wrv | rdv | rdst | enc | dec => exact hs

/-! ### The invariant under a command, an event and a step -/

theorem State.Inv.exec {i : Instr} {s t : State} (hs : s.Inv) (h : exec i s = .next t) : t.Inv := by
  obtain ⟨e, -, rfl⟩ | ⟨hok, rfl⟩ := exec_next_cases h
  · exact hs.raise e
  · obtain ⟨hpair, hkeys, hresp⟩ := hs
    have heffect : (commandEffect i s).Inv :=
      ⟨fullPairHasNoPending_commandEffect hpair hok, unwrittenKeysAreZero_commandEffect hkeys i,
        fun r hr => hresp r (commandEffect_resp i s ▸ hr)⟩
    exact heffect.addResponse (okResponse_wellFormed _)

theorem State.Inv.perform {e : HostEvent} {s t : State} (hs : s.Inv) (h : perform e s = .next t) : t.Inv := by
  have ⟨_, _, hresp⟩ := hs
  obtain ⟨c, i, -, -, hexec⟩ | ⟨c, r, -, -, rfl⟩ | ⟨-, rfl⟩ | ⟨c, taken, -, rfl⟩ := perform_next_cases h
  · exact hs.exec hexec
  · exact hs.raise .illegal
  · exact inv_resetCore hresp
  · exact inv_resetCore (s := addOutput _ s) hresp

/-- The event is taken from `inputs`, of which the invariant does not speak. -/
theorem State.Inv.step {s t : State} (hs : s.Inv) (h : step s = .next t) : t.Inv := by
  obtain ⟨-, rfl⟩ | ⟨e, rest, -, hperform⟩ := step_next_cases h
  · exact hs
  · exact State.Inv.perform (s := { s with inputs := rest }) hs hperform

/-- Settles O3: case by case of the host's event, and of the command if the event is one. -/
theorem everyStepKeepsInvariant : Obligations.EveryStepKeepsInvariant :=
  fun _ _ hs h => hs.step h

end Sys2Proof.Machine

/-! PROOFS. Which commands write which registers (10_state.md R21 to R26, R30). -/

namespace Sys2Proof.Machine

/-! ### Bits that are only ever set -/

/-- Setting more bits keeps those that are set. -/
theorem and_or_self_left {n : Nat} (x y : BitVec n) : x &&& (x ||| y) = x := by
  ext j hj
  simp +contextual

/-- No command but `RST` clears a key-valid bit (10_state.md R22). -/
theorem commandEffect_keepsValidBits {i : Instr} (s : State) (hrst : i ≠ .rst) :
    s.kv &&& (commandEffect i s).kv = s.kv := by
  by_cases hwrk : ∃ idx w, i = .wrk idx w
  · obtain ⟨idx, w, rfl⟩ := hwrk
    exact and_or_self_left _ _
  · obtain ⟨-, hkv⟩ := commandEffect_keepsKey s (fun idx w h => hwrk ⟨idx, w, h⟩) hrst
    rw [hkv, BitVec.and_self]

/-- Settles O50: a raised error writes no key, and of the effects only those of `WRK` and `RST` do. -/
theorem onlyWrkAndRstWriteTheKey : Obligations.OnlyWrkAndRstWriteTheKey := by
  intro i s t h hrst
  obtain ⟨e, -, rfl⟩ | ⟨-, rfl⟩ := exec_next_cases h
  · exact ⟨fun _ => ⟨rfl, rfl⟩, BitVec.and_self⟩
  · exact ⟨fun hwrk => commandEffect_keepsKey s hwrk hrst, commandEffect_keepsValidBits s hrst⟩

/-- No command but `RST` clears an error bit (10_state.md R26). -/
theorem exec_keepsErrorBits {i : Instr} {s t : State} (h : exec i s = .next t) (hrst : i ≠ .rst) :
    s.err &&& t.err = s.err := by
  obtain ⟨e, -, rfl⟩ | ⟨-, rfl⟩ := exec_next_cases h
  · exact and_or_self_left _ _
  · rw [addResponse_err, commandEffect_keepsErrors s hrst, BitVec.and_self]

/-- Settles O53: a legal word is a command, which keeps the set bits, and an illegal word sets one more. -/
theorem errorBitsAreSticky : Obligations.ErrorBitsAreSticky := by
  intro s t c rest hinputs hdecode h
  simp only [step, advance, hinputs, perform, performCommand] at h
  split at h
  next i hi => exact exec_keepsErrorBits (s := { s with inputs := rest }) h fun hrst => hdecode (hrst ▸ hi)
  next =>
    obtain rfl := (raise_next_iff _ _ _).1 h
    exact and_or_self_left _ _

/-! ### `SLOT` -/

/-- `SLOT` after a command, whether it raises an error or takes effect: only `PUSHB` and `EOT` may raise it, `EMIT` and `RST`
clear it, all others keep it (10_state.md R25). -/
theorem exec_slot_cases {i : Instr} {s t : State} (h : exec i s = .next t) :
    (((∃ b, i = .pushb b) ∨ i = .eot) ∧ s.slot ≤ t.slot)
      ∨ ((i = .emit ∨ i = .rst) ∧ t.slot = 0)
      ∨ (i ≠ .emit ∧ i ≠ .rst ∧ slotKept s t) := by
  obtain ⟨e, he, rfl⟩ | ⟨-, rfl⟩ := exec_next_cases h
  · have hemit : i ≠ .emit := by rintro rfl; cases he
    have hrst : i ≠ .rst := by rintro rfl; cases he
    exact .inr (.inr ⟨hemit, hrst, rfl⟩)
  · cases i with
    | pushb b => exact .inl ⟨.inl ⟨b, rfl⟩, slot_le_pushb b s⟩
    | eot => exact .inl ⟨.inr rfl, slot_le_eot s⟩
    | emit => exact .inr (.inl ⟨.inl rfl, rfl⟩)
    | rst => exact .inr (.inl ⟨.inr rfl, rfl⟩)
    | wrk | wrv | rdv | rdst | enc | dec => exact .inr (.inr ⟨nofun, nofun, rfl⟩)

/-- Settles O52: from the three things a command can do to `SLOT`. -/
theorem slotWritersAreFew : Obligations.SlotWritersAreFew := by
  intro i s t h
  obtain ⟨hwriter, hle⟩ | ⟨hclear, hzero⟩ | ⟨hemit, hrst, hkept⟩ := exec_slot_cases h
  · refine ⟨fun _ => hwriter, fun hlt => absurd hle hlt.not_ge, ?_⟩
    rintro (rfl | rfl) <;> simp at hwriter
  · exact ⟨fun hlt => absurd hlt (by simp [hzero]), fun _ => hclear, fun _ => hzero⟩
  · exact ⟨fun hlt => absurd hkept hlt.ne', fun hlt => absurd hkept hlt.ne,
      fun hclear => (hclear.elim hemit hrst).elim⟩

/-! ### `OUT` and `RESP` -/

/-- Neither a byte that was put out nor a response that was given is taken back (10_state.md R30). -/
abbrev onlyGrown (s t : State) : Prop := s.out <+: t.out ∧ s.resp <+: t.resp

theorem onlyGrown_raise (e : CoreError) (s : State) :
    onlyGrown s (addResponse (errorCode e) 0#32 (recordError e s)) :=
  ⟨List.prefix_rfl, List.prefix_append _ _⟩

theorem commandEffect_out_prefix (i : Instr) (s : State) : s.out <+: (commandEffect i s).out := by
  by_cases hemit : i = .emit
  · subst hemit
    exact List.prefix_append _ _
  · exact (commandEffect_keepsOutput s hemit) ▸ List.prefix_rfl

theorem exec_onlyGrown {i : Instr} {s t : State} (h : exec i s = .next t) : onlyGrown s t := by
  obtain ⟨e, -, rfl⟩ | ⟨-, rfl⟩ := exec_next_cases h
  · exact onlyGrown_raise e s
  · refine ⟨commandEffect_out_prefix i s, ?_⟩
    rw [addResponse_resp, commandEffect_resp]
    exact List.prefix_append _ _

theorem perform_onlyGrown {e : HostEvent} {s t : State} (h : perform e s = .next t) : onlyGrown s t := by
  obtain ⟨c, i, -, -, hexec⟩ | ⟨c, r, -, -, rfl⟩ | ⟨-, rfl⟩ | ⟨c, taken, -, rfl⟩ := perform_next_cases h
  · exact exec_onlyGrown hexec
  · exact onlyGrown_raise .illegal s
  · exact ⟨List.prefix_rfl, List.prefix_rfl⟩
  · exact ⟨List.prefix_append _ _, List.prefix_rfl⟩

/-- Settles O55: reset keeps both records, an abandoned `EMIT` appends to `OUT`, and a command appends to both at most. -/
theorem outputsOnlyGrow : Obligations.OutputsOnlyGrow := by
  intro s t h
  obtain ⟨-, rfl⟩ | ⟨e, rest, -, hperform⟩ := step_next_cases h
  · exact ⟨List.prefix_rfl, List.prefix_rfl⟩
  · exact perform_onlyGrown (s := { s with inputs := rest }) hperform

/-! ### Reset -/

theorem archZero_resetCore (s : State) : archZero (resetCore s) :=
  ⟨fun idx => by simp, rfl, fun idx => by simp, fun idx => by simp, rfl, rfl, rfl⟩

/-- Settles O1: reset writes a zero to every register of the architectural state, and neither `OUT` nor `RESP`. -/
theorem resetZeroesAllState : Obligations.ResetZeroesAllState :=
  ⟨by decide, fun s => ⟨archZero_resetCore s, rfl, rfl⟩⟩

/-! ### The status word -/

/-- `cat` on numbers: the lower part fills its own bits, and the upper part counts from there (00_scope.md R10). -/
theorem toNat_append_eq_add {m n : Nat} (x : BitVec m) (y : BitVec n) :
    (x ++ y).toNat = 2 ^ n * x.toNat + y.toNat := by
  rw [BitVec.toNat_append, ← Nat.shiftLeft_add_eq_or_of_lt y.isLt, Nat.shiftLeft_eq, Nat.mul_comm]

/-- The fields of the status word do not overlap (10_state.md R33). -/
theorem statusWord_toNat (s : State) :
    (statusWord s).toNat = s.cn.val + 4 * s.slot.val + 16 * s.kv.toNat + 256 * s.err.toNat := by
  have hcn : (BitVec.ofNat 2 s.cn.val).toNat = s.cn.val := Nat.mod_eq_of_lt s.cn.isLt
  have hslot : (BitVec.ofNat 2 s.slot.val).toNat = s.slot.val := Nat.mod_eq_of_lt (s.slot.isLt.trans (by decide))
  rw [statusWord, toNat_append_eq_add, toNat_append_eq_add, toNat_append_eq_add, toNat_append_eq_add, hcn, hslot]
  simp only [BitVec.toNat_ofNat]
  omega

/-- A bit of the status word, by the field that it lies in (10_state.md R33). -/
theorem statusWord_getLsbD (s : State) (n : Nat) :
    (statusWord s).getLsbD n =
      if n < 2 then (BitVec.ofNat 2 s.cn).getLsbD n
      else if n - 2 < 2 then (BitVec.ofNat 2 s.slot).getLsbD (n - 2)
      else if n - 4 < 4 then s.kv.getLsbD (n - 4)
      else if n - 8 < 3 then s.err.getLsbD (n - 8)
      else false := by
  unfold statusWord
  simp only [BitVec.getLsbD_append (n := 21 + 3 + 4 + 2), BitVec.getLsbD_append, BitVec.getLsbD_zero]
  simp only [Nat.sub_sub, Nat.reduceAdd]

/-- Settles O20: the numeric fields from the value of the whole word, the bits from the field that each lies in. -/
theorem statusWordLayout : Obligations.StatusWordLayout := by
  refine ⟨by decide, fun s => ⟨?cn, ?slot, fun j => ?kv, fun j => ?err, fun n hn => ?reserved, statusWord_toNat s,
    ?rdst⟩⟩
  case cn =>
    have hcn := s.cn.isLt
    rw [BitVec.extractLsb'_toNat, statusWord_toNat, Nat.shiftRight_zero]
    omega
  case slot =>
    have hcn := s.cn.isLt
    have hslot := s.slot.isLt
    rw [BitVec.extractLsb'_toNat, statusWord_toNat, Nat.shiftRight_eq_div_pow]
    omega
  case kv => rw [statusWord_getLsbD, if_neg (by omega), if_neg (by omega), if_pos (by omega), Nat.add_sub_cancel_left]
  case err =>
    rw [statusWord_getLsbD, if_neg (by omega), if_neg (by omega), if_neg (by omega), if_pos (by omega), Nat.add_sub_cancel_left]
  case reserved =>
    rw [statusWord_getLsbD, if_neg (by omega), if_neg (by omega), if_neg (by omega), if_neg (by omega)]
  case rdst => exact ⟨_, rfl, rfl⟩

end Sys2Proof.Machine

/-! PROOFS. What a host cannot observe: the key, but through the cipher commands (10_state.md R21), and the hidden registers
(10_state.md R28). -/

namespace Sys2Proof.Machine

/-! ### Masking the registers that are not read -/

/-- What is shown in place of `K`, `SUM`, `RND` and the count of free values: the registers that no command reads, but for
the key, which `ENC` and `DEC` read, and the count, from which `RST` draws. -/
structure Mask where
  k : Key → Key
  sum : Word → Word
  rnd : Fin 33 → Fin 33
  freeTick : Nat → Nat

/-- A state seen through a mask. -/
def masked (m : Mask) (s : State) : State :=
  { s with k := m.k s.k, sum := m.sum s.sum, rnd := m.rnd s.rnd, freeTick := m.freeTick s.freeTick }

/-- The mask of `keyHidden`. -/
def keyMask : Mask := ⟨fun _ => Vector.replicate 4 0#32, id, id, id⟩

/-- The mask of `visible`. -/
def hiddenMask : Mask := ⟨id, fun _ => 0#32, fun _ => 0, fun _ => 0⟩

theorem keyHidden_eq_masked : keyHidden = masked keyMask := rfl

theorem visible_eq_masked : visible = masked hiddenMask := rfl

/-- A stored byte goes to the same place under a mask. -/
theorem storeByte_masked (m : Mask) (b : Byte) (s : State) : storeByte b (masked m s) = masked m (storeByte b s) := by
  obtain ⟨k, kv, v, cb, cn, slot, err, sum, rnd, out, resp, inputs, freeTick⟩ := s
  match cn with
  | 0 | 1 | 2 | 3 => rfl

theorem deliver_masked (m : Mask) (c : Chunk) (s : State) : deliver c (masked m s) = masked m (deliver c s) := by
  obtain ⟨k, kv, v, cb, cn, slot, err, sum, rnd, out, resp, inputs, freeTick⟩ := s
  match slot with
  | 0 | 1 | 2 => rfl

theorem clearCount_masked (m : Mask) (s : State) : clearCount (masked m s) = masked m (clearCount s) := rfl

theorem flushPending_masked (m : Mask) (s : State) : flushPending (masked m s) = masked m (flushPending s) := by
  unfold flushPending
  rw [apply_ite (masked m), ← clearCount_masked, ← deliver_masked]
  rfl

theorem completePair_masked (m : Mask) (s : State) : completePair (masked m s) = masked m (completePair s) := by
  unfold completePair
  rw [apply_ite (masked m), ← deliver_masked]
  rfl

theorem pushb_masked (m : Mask) (b : Byte) (s : State) :
    commandEffect (.pushb b) (masked m s) = masked m (commandEffect (.pushb b) s) := by
  simp only [commandEffect]
  rw [apply_ite (masked m), ← storeByte_masked, ← clearCount_masked, ← deliver_masked]
  rfl

theorem eot_masked (m : Mask) (s : State) : commandEffect .eot (masked m s) = masked m (commandEffect .eot s) := by
  simp only [commandEffect]
  rw [apply_ite (masked m), ← completePair_masked, ← flushPending_masked]
  rfl

/-! ### A command under a mask -/

/-- No error depends on what a mask hides. -/
theorem commandError_masked (m : Mask) (i : Instr) (s : State) : commandError i (masked m s) = commandError i s := by
  cases i <;> rfl

/-- No response depends on what a mask hides. -/
theorem commandData_masked (m : Mask) (i : Instr) (s : State) : commandData i (masked m s) = commandData i s := by
  cases i with
  | pushb b => simp only [commandData, pushb_masked]; rfl
  | eot => simp only [commandData, eot_masked]; rfl
  | wrk | wrv | rdv | rdst | rst | emit | enc | dec => rfl

/-- What does not see through `f` is the same in two states that `f` shows alike. -/
theorem eq_of_blind {α : Type} {f : State → State} {g : State → α} (hblind : ∀ u, g u = g (f u)) {s s' : State}
    (hs : f s = f s') : g s = g s' :=
  calc g s = g (f s) := hblind s
    _ = g (f s') := congrArg g hs
    _ = g s' := (hblind s').symm

/-- A result whose next state, if there is one, is seen through `f`. -/
def mapNext (f : State → State) (o : Result) : Result := andThen o fun t => .next (f t)

@[simp] theorem mapNext_next (f : State → State) (t : State) : mapNext f (.next t) = .next (f t) := rfl
@[simp] theorem mapNext_fault (f : State → State) (r : Fault) : mapNext f (.fault r) = .fault r := rfl
@[simp] theorem mapNext_refused (f : State → State) (r : Refusal) : mapNext f (.refused r) = .refused r := rfl

@[simp] theorem mapNext_raise (m : Mask) (e : CoreError) (s : State) :
    mapNext (masked m) (raise e s) = raise e (masked m s) := rfl

@[simp] theorem mapNext_respondOk (m : Mask) (data : Word) (s : State) :
    mapNext (masked m) (respondOk data s) = respondOk data (masked m s) := rfl

/-- A command whose effect looks alike through a mask from two states that look alike is answered alike. -/
theorem exec_masked_congr {m : Mask} {i : Instr} {s s' : State} (hs : masked m s = masked m s')
    (heffect : masked m (commandEffect i s) = masked m (commandEffect i s')) :
    mapNext (masked m) (exec i s) = mapNext (masked m) (exec i s') := by
  have herror : commandError i s = commandError i s' := eq_of_blind (fun u => (commandError_masked m i u).symm) hs
  have hdata : commandData i s = commandData i s' := eq_of_blind (fun u => (commandData_masked m i u).symm) hs
  cases he : commandError i s with
  | some e =>
    rw [exec_of_error he, exec_of_error (herror ▸ he), mapNext_raise, mapNext_raise, hs]
  | none =>
    rw [exec_of_no_error he, exec_of_no_error (herror ▸ he), mapNext_respondOk, mapNext_respondOk, hdata, heffect]

/-! ### The key -/

/-- Every effect but those of `ENC` and `DEC` is seen alike whatever the key (10_state.md R21). -/
theorem commandEffect_keyHidden (i : Instr) (henc : i ≠ .enc) (hdec : i ≠ .dec) (s : State) :
    keyHidden (commandEffect i s) = keyHidden (commandEffect i (keyHidden s)) := by
  cases i with
  | enc => exact absurd rfl henc
  | dec => exact absurd rfl hdec
  | pushb b => rw [keyHidden_eq_masked, pushb_masked]; rfl
  | eot => rw [keyHidden_eq_masked, eot_masked]; rfl
  | wrk | wrv | rdv | rdst | rst | emit => rfl

/-- Settles O51: neither the error, nor the data, nor the effect of such a command depends on the key. -/
theorem keyIsNeverReadBack : Obligations.KeyIsNeverReadBack := by
  intro i s s' t henc hdec hs h
  have hsame : mapNext keyHidden (exec i s) = mapNext keyHidden (exec i s') :=
    exec_masked_congr (m := keyMask) hs (eq_of_blind (commandEffect_keyHidden i henc hdec) hs)
  rw [h] at hsame
  cases h' : exec i s' with
  | next t' => exact ⟨t', rfl, by simpa [h'] using hsame⟩
  | fault r => simp [h'] at hsame
  | refused r => simp [h'] at hsame

/-! ### The hidden registers -/

/-- No effect reads a hidden register: `ENC`, `DEC` and reset overwrite them, the others keep them (10_state.md R28). -/
theorem commandEffect_visible (i : Instr) (s : State) :
    visible (commandEffect i s) = visible (commandEffect i (visible s)) := by
  cases i with
  | pushb b => rw [visible_eq_masked, pushb_masked]; rfl
  | eot => rw [visible_eq_masked, eot_masked]; rfl
  | wrk | wrv | rdv | rdst | rst | emit | enc | dec => rfl

theorem performCommand_visible (c : CommandWord) {s s' : State} (hs : visible s = visible s') :
    mapNext visible (performCommand c s) = mapNext visible (performCommand c s') := by
  unfold performCommand
  cases decode c with
  | ok i => exact exec_masked_congr (m := hiddenMask) hs (eq_of_blind (commandEffect_visible i) hs)
  | error r => exact congrArg (raise .illegal) hs

theorem perform_visible (e : HostEvent) {s s' : State} (hs : visible s = visible s') :
    mapNext visible (perform e s) = mapNext visible (perform e s') := by
  cases e with
  | command c => exact performCommand_visible c hs
  | reset => exact eq_of_blind (f := visible) (g := fun u => mapNext visible (perform .reset u)) (fun _ => rfl) hs
  | resetDuring c taken =>
    exact eq_of_blind (f := visible) (g := fun u => mapNext visible (perform (.resetDuring c taken) u)) (fun _ => rfl) hs
  | emitStalled taken => rfl

theorem step_visible {s s' : State} (hs : visible s = visible s') :
    mapNext visible (step s) = mapNext visible (step s') := by
  have hinputs : s.inputs = s'.inputs := eq_of_blind (f := visible) (fun _ => rfl) hs
  unfold step advance
  rw [← hinputs]
  cases s.inputs with
  | nil => exact congrArg Host.Outcome.next hs
  | cons e rest =>
    have hrest : visible { s with inputs := rest } = visible { s' with inputs := rest } :=
      eq_of_blind (f := visible) (g := fun u => visible { u with inputs := rest }) (fun _ => rfl) hs
    exact perform_visible e hrest

/-- Settles O56: the two results are the same one seen without the hidden registers. -/
theorem hiddenRegistersAreNeverObserved : Obligations.HiddenRegistersAreNeverObserved := by
  intro s s' hs
  have hsame := step_visible hs
  revert hsame
  cases step s <;> cases step s' <;> simp

end Sys2Proof.Machine

/-! PROOFS. One command after the other, and the order of the bytes that they carry (20_memory.md R52, R55, R57). -/

namespace Sys2Proof.Machine

/-! ### The step by the host's next event -/

/-- A step performs the host's next event on the state without it. -/
theorem step_of_inputs_cons {s : State} {e : HostEvent} {rest : List HostEvent} (hinputs : s.inputs = e :: rest) :
    step s = perform e { s with inputs := rest } := by
  rw [step, advance, hinputs]

theorem perform_of_decode {c : CommandWord} {i : Instr} (hdecode : decode c = .ok i) (s : State) :
    perform (.command c) s = exec i s := by
  rw [perform, performCommand, hdecode]

/-- Settles O10: the next event is performed, and a word that decodes is performed as its command. -/
theorem stepPerformsDecodedCommand : Obligations.StepPerformsDecodedCommand := by
  intro s c rest i hinputs hdecode
  rw [step_of_inputs_cons hinputs, perform_of_decode hdecode]

/-- Settles O15: the next event is performed, and a stalled `EMIT` is performed as a fault. -/
theorem emitNeverTakenStops : Obligations.EmitNeverTakenStops :=
  fun _ _ _ hinputs => step_of_inputs_cons hinputs

/-! ### Commands in sequence -/

theorem performAll_cons_of_next {i : Instr} {s t : State} (h : exec i s = .next t) (is : List Instr) :
    performAll (i :: is) s = performAll is t := by
  rw [performAll, h, andThen]

/-! ### `PUSHB` by the bytes that wait -/

/-- `slot` chunks stand in the pair, and the bytes `bs` wait for the next one (10_state.md R24, R25). -/
structure Waiting (slot : Fin 3) (bs : List Byte) (s : State) : Prop where
  slot_eq : s.slot = slot
  pending_eq : pending s = bs

theorem Waiting.cn_eq {slot : Fin 3} {bs : List Byte} {s : State} (hs : Waiting slot bs s) : s.cn.val = bs.length := by
  rw [← hs.pending_eq, pending_length]

theorem waiting_of_readyForText {s : State} (hs : readyForText s) : Waiting 0 [] s := by
  obtain ⟨hcn, hslot⟩ := hs
  exact ⟨hslot, by simp [pending, hcn]⟩

/-- A stored byte waits behind those that waited before it. -/
theorem pending_storeByte (b : Byte) {s : State} (hcn : s.cn.val < 3) :
    pending (storeByte b s) = pending s ++ [b] := by
  simp [pending, storeByte_of_lt b s hcn, Vector.toList_set, List.take_add_one, List.take_set_of_le, hcn]

/-- The byte behind three waiting ones is the last of their chunk. -/
theorem completedChunk_of_pending {b0 b1 b2 : Byte} {s : State} (hpending : pending s = [b0, b1, b2]) (b3 : Byte) :
    completedChunk b3 s = ⟨b0, b1, b2, b3⟩ := by
  have hcn : s.cn.val = 3 := by rw [← pending_length, hpending]; rfl
  have hcb : s.cb = #v[b0, b1, b2] := by
    rw [pending, hcn, List.take_of_length_le s.cb.length_toList.le] at hpending
    exact Vector.toList_inj.1 hpending
  rw [completedChunk, hcb]
  rfl

/-- `PUSHB` raises nothing while the pair is not full (60_exceptions.md R213). -/
theorem exec_pushb_of_not_full (b : Byte) {s : State} (hslot : s.slot ≠ 2) :
    exec (.pushb b) s = respondOk (commandData (.pushb b) s) (commandEffect (.pushb b) s) :=
  exec_of_no_error (if_neg hslot)

/-- `PUSHB` with fewer than three bytes waiting: the byte waits too (40_blocksplitter.md R105). -/
theorem exec_pushb_stores {slot : Fin 3} {bs : List Byte} {s : State} (hs : Waiting slot bs s) (b : Byte)
    (hslot : slot ≠ 2) (hbs : bs.length < 3) : ∃ t, exec (.pushb b) s = .next t ∧ Waiting slot (bs ++ [b]) t := by
  have hcn : s.cn.val < 3 := hs.cn_eq ▸ hbs
  have heffect : commandEffect (.pushb b) s = storeByte b s := if_pos hcn
  refine ⟨_, exec_pushb_of_not_full b (hs.slot_eq ▸ hslot), ?_, ?_⟩
  · rw [addResponse_slot, heffect, storeByte_slot, hs.slot_eq]
  · exact (congrArg pending heffect).trans (by rw [pending_storeByte b hcn, hs.pending_eq])

/-- The fourth byte into an empty pair: the chunk is delivered as the first word (40_blocksplitter.md R104, R105). -/
theorem exec_pushb_delivers_first {b0 b1 b2 : Byte} {s : State} (hs : Waiting 0 [b0, b1, b2] s) (b3 : Byte) :
    ∃ t, exec (.pushb b3) s = .next t ∧ Waiting 1 [] t ∧ readData 0 t = encodeChunk ⟨b0, b1, b2, b3⟩ := by
  have heffect : commandEffect (.pushb b3) s
      = { s with v := s.v.set 0 (encodeChunk ⟨b0, b1, b2, b3⟩), slot := 1, cn := 0 } := by
    have hcn : ¬ s.cn < 3 := by simp [Fin.lt_def, hs.cn_eq]
    rw [commandEffect, if_neg hcn, completedChunk_of_pending hs.pending_eq, deliver_of_empty _ s hs.slot_eq]
    rfl
  refine ⟨_, exec_pushb_of_not_full b3 (by simp [hs.slot_eq]), ?_⟩
  rw [heffect]
  exact ⟨⟨rfl, rfl⟩, by simp [readData]⟩

/-! ### The byte order of a word -/

/-- The encoded chunk as a number: the first byte is the most significant (20_memory.md R52, 41_wordcodec.md R120). -/
theorem encodeChunk_toNat (c : Chunk) :
    (encodeChunk c).toNat = c.b0.toNat * 2 ^ 24 + c.b1.toNat * 2 ^ 16 + c.b2.toNat * 2 ^ 8 + c.b3.toNat := by
  rw [encodeChunk, toNat_append_eq_add, toNat_append_eq_add, toNat_append_eq_add]
  omega

/-- The host sees the data of the response that was given last. -/
@[simp] theorem lastData_addResponse (st : BitVec 4) (data : Word) (s : State) :
    lastData (addResponse st data s) = data := by
  simp [lastData]

/-- Settles O27: three bytes wait, the fourth delivers the chunk of all four, and `RDV 0` answers with its word. -/
theorem pushedBytesReadBackBigEndian : Obligations.PushedBytesReadBackBigEndian := by
  intro b0 b1 b2 b3 s hready
  obtain ⟨s1, hexec0, hs1⟩ := exec_pushb_stores (waiting_of_readyForText hready) b0 (by decide) (by simp)
  obtain ⟨s2, hexec1, hs2⟩ := exec_pushb_stores hs1 b1 (by decide) (by simp)
  obtain ⟨s3, hexec2, hs3⟩ := exec_pushb_stores hs2 b2 (by decide) (by simp)
  obtain ⟨s4, hexec3, -, hword⟩ := exec_pushb_delivers_first hs3 b3
  refine ⟨addResponse 0#4 (readData 0 s4) s4, ?_, ?_⟩
  · rw [performAll_cons_of_next hexec0, performAll_cons_of_next hexec1, performAll_cons_of_next hexec2,
      performAll_cons_of_next hexec3]
    rfl
  · rw [lastData_addResponse, hword, encodeChunk_toNat]

end Sys2Proof.Machine

/-! PROOFS. The encoding of the commands (30_encoding.md R70 to R79): a word decodes to a command exactly when it is the word
of that command, and the words of commands are those in a row of the opcode map, and those that R75 does not call illegal. -/

namespace Sys2Proof

/-! ### The two fields of a command word (R70) -/

@[simp] theorem opField_catCommand (op : BitVec 8) (imm : Word) : opField (catCommand op imm) = op :=
  BitVec.extractLsb'_append_eq_left

@[simp] theorem immField_catCommand (op : BitVec 8) (imm : Word) : immField (catCommand op imm) = imm :=
  BitVec.extractLsb'_append_eq_right

@[simp] theorem catCommand_opField_immField (c : CommandWord) : catCommand (opField c) (immField c) = c :=
  BitVec.extractLsb'_append_extractLsb' (w := 8) (len := 32)

/-- The two parts of the immediate of sub-format B (R71). -/
@[simp] theorem byteFormatMbz_append (mbz : BitVec 24) (b : Byte) : byteFormatMbz (mbz ++ b) = mbz :=
  BitVec.extractLsb'_append_eq_left

@[simp] theorem byteField_append (mbz : BitVec 24) (b : Byte) : byteField (mbz ++ b) = b :=
  BitVec.extractLsb'_append_eq_right

@[simp] theorem opField_encode (i : Instr) : opField (encode i) = encodeOp i := opField_catCommand _ _

@[simp] theorem immField_encode (i : Instr) : immField (encode i) = encodeImm i := immField_catCommand _ _

/-- A word is that of a command if both its fields are the command's. -/
theorem encode_eq_of_fields {i : Instr} {c : CommandWord}
    (h : opField c = encodeOp i ∧ immField c = encodeImm i) : encode i = c := by
  obtain ⟨hop, himm⟩ := h
  rw [encode, ← hop, ← himm, catCommand_opField_immField]

/-! ### The word that carries given operands (R71, R72) -/

/-- An opcode under `WRK`'s six fixed bits is that of `WRK` with the index in its other two. -/
theorem encode_wrk_of_opField {c : CommandWord} (h : (opField c).extractLsb' 2 6 = 0b000100#6) :
    encode (.wrk (keyIndexField (opField c)) (immField c)) = c := by
  refine encode_eq_of_fields ⟨?_, rfl⟩
  rw [encodeOp, ← h]
  exact (BitVec.extractLsb'_append_extractLsb' (w := 6) (len := 2)).symm

theorem encode_wrv_of_opField {c : CommandWord} (h : (opField c).extractLsb' 1 7 = 0b0010000#7) :
    encode (.wrv (dataIndexField (opField c)) (immField c)) = c := by
  refine encode_eq_of_fields ⟨?_, rfl⟩
  rw [encodeOp, ← h]
  exact (BitVec.extractLsb'_append_extractLsb' (w := 7) (len := 1)).symm

theorem encode_rdv_of_fields {c : CommandWord}
    (h : (opField c).extractLsb' 1 7 = 0b0010100#7 ∧ immField c = 0#32) :
    encode (.rdv (dataIndexField (opField c))) = c := by
  obtain ⟨hop, himm⟩ := h
  refine encode_eq_of_fields ⟨?_, himm⟩
  rw [encodeOp, ← hop]
  exact (BitVec.extractLsb'_append_extractLsb' (w := 7) (len := 1)).symm

theorem encode_pushb_of_fields {c : CommandWord}
    (h : opField c = 0x40#8 ∧ byteFormatMbz (immField c) = 0#24) :
    encode (.pushb (byteField (immField c))) = c := by
  obtain ⟨hop, hmbz⟩ := h
  refine encode_eq_of_fields ⟨hop, ?_⟩
  rw [encodeImm, ← hmbz]
  exact (BitVec.extractLsb'_append_extractLsb' (w := 24) (len := 8)).symm

/-! ### Decoding and encoding undo each other (R78) -/

theorem keyIndexField_encodeOp_wrk (idx : Fin 4) (w : Word) : keyIndexField (encodeOp (.wrk idx w)) = idx := by
  rw [encodeOp]
  decide +revert

theorem dataIndexField_encodeOp_wrv (idx : Fin 2) (w : Word) : dataIndexField (encodeOp (.wrv idx w)) = idx := by
  rw [encodeOp]
  decide +revert

theorem decode_encode_wrk (idx : Fin 4) (w : Word) : decode (encode (.wrk idx w)) = .ok (.wrk idx w) := by
  have htest : (encodeOp (.wrk idx w)).extractLsb' 2 6 = 0b000100#6 := BitVec.extractLsb'_append_eq_left
  rw [decode, opField_encode, immField_encode, if_pos htest, keyIndexField_encodeOp_wrk, encodeImm]

theorem decode_encode_wrv (idx : Fin 2) (w : Word) : decode (encode (.wrv idx w)) = .ok (.wrv idx w) := by
  have hnotWrk : (encodeOp (.wrv idx w)).extractLsb' 2 6 ≠ 0b000100#6 := by
    rw [encodeOp]
    decide +revert
  have htest : (encodeOp (.wrv idx w)).extractLsb' 1 7 = 0b0010000#7 := BitVec.extractLsb'_append_eq_left
  rw [decode, opField_encode, immField_encode, if_neg hnotWrk, if_pos htest, dataIndexField_encodeOp_wrv, encodeImm]

theorem decode_encode_pushb (b : Byte) : decode (encode (.pushb b)) = .ok (.pushb b) := by
  simp [decode, encodeOp, encodeImm]

/-- The words without an operand are eight constants, `RDV`'s two among them. -/
theorem decode_encode (i : Instr) : decode (encode i) = .ok i := by
  cases i with
  | wrk idx w => exact decode_encode_wrk idx w
  | wrv idx w => exact decode_encode_wrv idx w
  | pushb b => exact decode_encode_pushb b
  | rdv idx => decide +revert
  | rdst | rst | eot | emit | enc | dec => decide

/-- One test of the decoding procedure: it is met by words of the command that it answers, or the next tests decide. -/
theorem encode_of_decode_test {c : CommandWord} {i j : Instr} {test : Prop} [Decidable test]
    {rest : Except DecodeReject Instr} (hmet : test → encode j = c) (hrest : rest = .ok i → encode i = c)
    (h : (if test then .ok j else rest) = .ok i) : encode i = c := by
  split at h
  · cases h
    exact hmet ‹test›
  · exact hrest h

/-- Each test of R78 covers all the bits that the operands do not carry. -/
theorem encode_of_decode {c : CommandWord} {i : Instr} : decode c = .ok i → encode i = c := by
  refine encode_of_decode_test encode_wrk_of_opField <| encode_of_decode_test encode_wrv_of_opField <|
    encode_of_decode_test encode_rdv_of_fields <| encode_of_decode_test (encode_eq_of_fields (i := .rdst)) <|
    encode_of_decode_test (encode_eq_of_fields (i := .rst)) <| encode_of_decode_test encode_pushb_of_fields <|
    encode_of_decode_test (encode_eq_of_fields (i := .eot)) <| encode_of_decode_test (encode_eq_of_fields (i := .emit)) <|
    encode_of_decode_test (encode_eq_of_fields (i := .enc)) <|
    encode_of_decode_test (encode_eq_of_fields (i := .dec)) fun h => ?_
  split at h <;> cases h

theorem decode_eq_ok_iff {c : CommandWord} {i : Instr} : decode c = .ok i ↔ encode i = c :=
  ⟨encode_of_decode, fun h => h ▸ decode_encode i⟩

theorem encode_injective {i j : Instr} (h : encode i = encode j) : i = j :=
  Except.ok.inj ((decode_encode i).symm.trans (decode_eq_ok_iff.2 h.symm))

/-- Decoding is total: a word is rejected exactly when no command has it. -/
theorem exists_decode_error_iff {c : CommandWord} : (∃ e, decode c = .error e) ↔ ∀ i, encode i ≠ c := by
  simp only [ne_eq, ← decode_eq_ok_iff]
  cases decode c <;> simp

/-- Settles O4: the fields of the word are the command's, so R78's test for it is met and those before it are not. -/
theorem decodeOfEncode : Obligations.DecodeOfEncode := decode_encode

/-- Settles O5: branch by branch of the decoder, the fixed bits tested and the operands read make up the word. -/
theorem encodeOfDecode : Obligations.EncodeOfDecode := fun _ _ => encode_of_decode

/-! ### The opcode map (R74) -/

theorem selectsRow_encode (i : Instr) : selectsRow (encode i) i := by
  cases i with
  | wrk idx w => exact Laws.EncodingRow.wrk idx w
  | wrv idx w => exact Laws.EncodingRow.wrv idx w
  | rdv idx => exact Laws.EncodingRow.rdv idx
  | rdst => exact Laws.EncodingRow.rdst
  | rst => exact Laws.EncodingRow.rst
  | pushb b => exact Laws.EncodingRow.pushb b
  | eot => exact Laws.EncodingRow.eot
  | emit => exact Laws.EncodingRow.emit
  | enc => exact Laws.EncodingRow.enc
  | dec => exact Laws.EncodingRow.dec

theorem opField_and (c d : CommandWord) : opField (c &&& d) = opField c &&& opField d := BitVec.extractLsb'_and

theorem immField_and (c d : CommandWord) : immField (c &&& d) = immField c &&& immField d := BitVec.extractLsb'_and

theorem byteFormatMbz_and (x y : Word) : byteFormatMbz (x &&& y) = byteFormatMbz x &&& byteFormatMbz y :=
  BitVec.extractLsb'_and

/-- A row of the opcode map is a mask and a match on each of the two fields. -/
theorem selectsRow.fields {c : CommandWord} {i : Instr} {opMask opMatch : BitVec 8} {immMask immMatch : Word}
    (h : selectsRow c i) (hmask : tableMask i = catCommand opMask immMask)
    (hmatch : tableMatch i = catCommand opMatch immMatch) :
    opField c &&& opMask = opMatch ∧ immField c &&& immMask = immMatch := by
  rw [selectsRow, hmask, hmatch] at h
  constructor
  · simpa only [opField_and, opField_catCommand] using congrArg opField h
  · simpa only [immField_and, immField_catCommand] using congrArg immField h

/-- A mask of all ones leaves one word in its row. -/
theorem selectsRow.eq_tableMatch {c : CommandWord} {i : Instr} (h : selectsRow c i)
    (hmask : tableMask i = BitVec.allOnes 40) : tableMatch i = c := by
  rw [← h, hmask, BitVec.and_allOnes]

/-- The opcode masks of the opcode map test the same bits as the procedure of R78. -/
theorem opcodeMask_tests_fixed_bits (op : BitVec 8) :
    (op &&& 0xFC#8 = 0x10#8 → op.extractLsb' 2 6 = 0b000100#6)
      ∧ (op &&& 0xFE#8 = 0x20#8 → op.extractLsb' 1 7 = 0b0010000#7)
      ∧ (op &&& 0xFE#8 = 0x28#8 → op.extractLsb' 1 7 = 0b0010100#7) := by
  decide +revert

/-- A word in a row of the opcode map is the word of a command of that row. -/
theorem exists_encode_of_selectsRow {c : CommandWord} {i : Instr} (h : selectsRow c i) :
    ∃ j, encode j = c ∧ mnemonic j = mnemonic i := by
  obtain ⟨hwrk, hwrv, hrdv⟩ := opcodeMask_tests_fixed_bits (opField c)
  cases i with
  | wrk idx w =>
    obtain ⟨hop, -⟩ := h.fields (opMask := 0xFC#8) (opMatch := 0x10#8) (immMask := 0#32) (immMatch := 0#32) rfl rfl
    exact ⟨_, encode_wrk_of_opField (hwrk hop), rfl⟩
  | wrv idx w =>
    obtain ⟨hop, -⟩ := h.fields (opMask := 0xFE#8) (opMatch := 0x20#8) (immMask := 0#32) (immMatch := 0#32) rfl rfl
    exact ⟨_, encode_wrv_of_opField (hwrv hop), rfl⟩
  | rdv idx =>
    obtain ⟨hop, himm⟩ := h.fields (opMask := 0xFE#8) (opMatch := 0x28#8) (immMask := BitVec.allOnes 32)
      (immMatch := 0#32) rfl rfl
    rw [BitVec.and_allOnes] at himm
    exact ⟨_, encode_rdv_of_fields ⟨hrdv hop, himm⟩, rfl⟩
  | pushb b =>
    obtain ⟨hop, himm⟩ := h.fields (opMask := BitVec.allOnes 8) (opMatch := 0x40#8) (immMask := BitVec.allOnes 24 ++ 0#8)
      (immMatch := 0#24 ++ 0#8) rfl rfl
    rw [BitVec.and_allOnes] at hop
    have hmbz : byteFormatMbz (immField c) = 0#24 := by
      simpa only [byteFormatMbz_and, byteFormatMbz_append, BitVec.and_allOnes] using congrArg byteFormatMbz himm
    exact ⟨_, encode_pushb_of_fields ⟨hop, hmbz⟩, rfl⟩
  | rdst => exact ⟨.rdst, h.eq_tableMatch rfl, rfl⟩
  | rst => exact ⟨.rst, h.eq_tableMatch rfl, rfl⟩
  | eot => exact ⟨.eot, h.eq_tableMatch rfl, rfl⟩
  | emit => exact ⟨.emit, h.eq_tableMatch rfl, rfl⟩
  | enc => exact ⟨.enc, h.eq_tableMatch rfl, rfl⟩
  | dec => exact ⟨.dec, h.eq_tableMatch rfl, rfl⟩

/-- Settles O6: the words of a row are those of its commands, and a word decodes to one command at most. -/
theorem decodeFollowsOpcodeMap : Obligations.DecodeFollowsOpcodeMap := by
  refine ⟨fun c i h => ?inRow, fun c e h i hi => ?inNoRow, fun c i j hi hj => ?exclusive⟩
  case inRow => exact encode_of_decode h ▸ selectsRow_encode i
  case inNoRow =>
    obtain ⟨j, hj, -⟩ := exists_encode_of_selectsRow hi
    exact exists_decode_error_iff.1 ⟨e, h⟩ j hj
  case exclusive =>
    obtain ⟨i', hi', hmi⟩ := exists_encode_of_selectsRow hi
    obtain ⟨j', hj', hmj⟩ := exists_encode_of_selectsRow hj
    have hsame : i' = j' := encode_injective (hi'.trans hj'.symm)
    rw [← hmi, ← hmj, hsame]

/-! ### Illegal words (R75) -/

/-- The opcodes of the sub-format without an operand (R71), as R75 (b) lists them. -/
abbrev noOperandOpcodes : List (BitVec 8) := [0x28#8, 0x29#8, 0x30#8, 0x3F#8, 0x41#8, 0x50#8, 0x60#8, 0x61#8]

theorem not_illegalWord_iff {c : CommandWord} :
    ¬ illegalWord c ↔ opField c ∈ assignedOpcodes ∧ (opField c ∈ noOperandOpcodes → immField c = 0#32)
      ∧ (opField c = 0x40#8 → byteFormatMbz (immField c) = 0#24) := by
  simp only [illegalWord, not_or, not_and, not_not]

/-- R75 asks for no zero in the operand word of `WRK` and `WRV` (R71). -/
theorem not_illegalWord_of_wordOpcode {c : CommandWord} (hassigned : opField c ∈ assignedOpcodes)
    (hword : opField c ∉ 0x40#8 :: noOperandOpcodes) : ¬ illegalWord c := by
  obtain ⟨hbyte, hoperand⟩ := List.ne_and_not_mem_of_not_mem_cons hword
  exact not_illegalWord_iff.2 ⟨hassigned, fun h => absurd h hoperand, fun h => absurd h hbyte⟩

/-- The word of a command has an assigned opcode, and zeros where its sub-format asks for them (R71). -/
theorem not_illegalWord_encode (i : Instr) : ¬ illegalWord (encode i) := by
  cases i with
  | wrk idx w => refine not_illegalWord_of_wordOpcode ?_ ?_ <;> rw [opField_encode, encodeOp] <;> decide +revert
  | wrv idx w => refine not_illegalWord_of_wordOpcode ?_ ?_ <;> rw [opField_encode, encodeOp] <;> decide +revert
  | pushb b =>
    rw [not_illegalWord_iff, opField_encode, immField_encode]
    refine ⟨?_, fun h => absurd h ?_, fun _ => by rw [encodeImm, byteFormatMbz_append]⟩
    · rw [encodeOp]; decide
    · rw [encodeOp]; decide
  | rdv idx => decide +revert
  | rdst | rst | eot | emit | enc | dec => decide

/-- The assigned opcodes by their sub-format (R71, R75). -/
theorem opcode_cases_of_assigned (op : BitVec 8) : op ∈ assignedOpcodes →
    op.extractLsb' 2 6 = 0b000100#6 ∨ op.extractLsb' 1 7 = 0b0010000#7 ∨ op = 0x40#8 ∨ op ∈ noOperandOpcodes := by
  decide +revert

/-- Each opcode without an operand is that of a command whose immediate is zero. -/
theorem exists_encode_of_noOperandOpcode {c : CommandWord} (hop : opField c ∈ noOperandOpcodes)
    (himm : immField c = 0#32) : ∃ i, encode i = c := by
  have hcommand : ∀ op ∈ noOperandOpcodes,
      ∃ i ∈ [.rdv 0, .rdv 1, .rdst, .rst, .eot, .emit, .enc, .dec], op = encodeOp i ∧ encodeImm i = 0#32 := by
    decide
  obtain ⟨i, -, hopi, himmi⟩ := hcommand _ hop
  exact ⟨i, encode_eq_of_fields ⟨hopi, himm.trans himmi.symm⟩⟩

theorem exists_encode_of_not_illegalWord {c : CommandWord} (h : ¬ illegalWord c) : ∃ i, encode i = c := by
  obtain ⟨hassigned, hzero, hmbz⟩ := not_illegalWord_iff.1 h
  obtain hwrk | hwrv | hpushb | hnone := opcode_cases_of_assigned _ hassigned
  · exact ⟨_, encode_wrk_of_opField hwrk⟩
  · exact ⟨_, encode_wrv_of_opField hwrv⟩
  · exact ⟨_, encode_pushb_of_fields ⟨hpushb, hmbz hpushb⟩⟩
  · exact exists_encode_of_noOperandOpcode hnone (hzero hnone)

theorem exists_decode_error_iff_illegalWord (c : CommandWord) : (∃ e, decode c = .error e) ↔ illegalWord c := by
  rw [exists_decode_error_iff]
  constructor
  · intro hnone
    by_contra hlegal
    obtain ⟨i, hi⟩ := exists_encode_of_not_illegalWord hlegal
    exact hnone i hi
  · rintro hillegal i rfl
    exact not_illegalWord_encode i hillegal

/-- Settles O7: a word is rejected when no command has it, and the words of commands are those that R75 leaves. -/
theorem illegalWordsAreExactly : Obligations.IllegalWordsAreExactly := exists_decode_error_iff_illegalWord

/-- Settles O8: each word evaluated by the decoder. -/
theorem specWordsDecode : Obligations.SpecWordsDecode := by
  unfold Obligations.SpecWordsDecode
  decide

/-! ### The assembler (R79, R80) -/

/-- The commands that an accepted line stands for; `RAW` stands for a word, which need not be one of a command. -/
def AsmLine.commands : AsmLine → List Instr
  | .wrk idx w => [.wrk (Fin.ofNat 4 idx) (BitVec.ofNat 32 w)]
  | .wrv idx w => [.wrv (Fin.ofNat 2 idx) (BitVec.ofNat 32 w)]
  | .rdv idx => [.rdv (Fin.ofNat 2 idx)]
  | .rdst => [.rdst]
  | .rst => [.rst]
  | .pushb b => [.pushb (BitVec.ofNat 8 b)]
  | .eot => [.eot]
  | .emit => [.emit]
  | .enc => [.enc]
  | .dec => [.dec]
  | .key w0 w1 w2 w3 =>
    [.wrk 0 (BitVec.ofNat 32 w0), .wrk 1 (BitVec.ofNat 32 w1), .wrk 2 (BitVec.ofNat 32 w2), .wrk 3 (BitVec.ofNat 32 w3)]
  | .blk w0 w1 => [.wrv 0 (BitVec.ofNat 32 w0), .wrv 1 (BitVec.ofNat 32 w1)]
  | .pushs t => t.map fun b => .pushb (BitVec.ofNat 8 b)
  | .raw _ _ => []

theorem assemble_of_not_wf {l : AsmLine} (hwf : l.wf = false) : assemble l = none := by
  unfold assemble
  rw [hwf]
  rfl

theorem assemble_of_wf {l : AsmLine} (hwf : l.wf = true) (hraw : ∀ op imm, l ≠ .raw op imm) :
    assemble l = some (l.commands.map encode) := by
  unfold assemble
  rw [if_pos hwf]
  cases l with
  | raw op imm => exact absurd rfl (hraw op imm)
  | pushs t => rw [AsmLine.commands, List.map_map]; rfl
  | wrk | wrv | rdv | rdst | rst | pushb | eot | emit | enc | dec | key | blk => rfl

/-- Settles O9: an accepted line emits the words of its commands, which decode. -/
theorem assemblerEmitsOnlyCommands : Obligations.AssemblerEmitsOnlyCommands := by
  refine ⟨fun l ws hws hraw c hc => ?_, fun l => assemble_of_not_wf⟩
  cases hwf : l.wf with
  | false => simp [assemble_of_not_wf hwf] at hws
  | true =>
    obtain rfl : l.commands.map encode = ws := Option.some.inj ((assemble_of_wf hwf hraw).symm.trans hws)
    obtain ⟨i, -, rfl⟩ := List.mem_map.1 hc
    exact ⟨i, decode_encode i⟩

end Sys2Proof

/-! PROOFS. What every command word is answered with, legal or not (30_encoding.md R75, R77; 60_exceptions.md R211). -/

namespace Sys2Proof.Machine

theorem perform_of_illegalWord {c : CommandWord} (h : illegalWord c) (s : State) :
    perform (.command c) s = raise .illegal s := by
  obtain ⟨e, hdecode⟩ := (exists_decode_error_iff_illegalWord c).2 h
  rw [perform, performCommand, hdecode]

/-- Settles O11: the step is the raising of ILLEGAL, which writes `ERR` and `RESP` alone. -/
theorem illegalCommandRaises : Obligations.IllegalCommandRaises := by
  intro s c rest hinputs hillegal
  refine ⟨_, (step_of_inputs_cons hinputs).trans (perform_of_illegalWord hillegal _), ?_⟩
  exact ⟨rfl, rfl, rfl, ⟨rfl, rfl⟩, rfl, ⟨rfl, rfl⟩, rfl, ⟨rfl, rfl, rfl⟩, rfl⟩

theorem inputs_keptBySplitter : KeptBySplitter State.inputs := ⟨storeByte_inputs, deliver_inputs, clearCount_inputs⟩

/-- No command's effect takes an event from the host's. -/
theorem commandEffect_keepsInputs (i : Instr) (s : State) : inputsKept s (commandEffect i s) := by
  cases i with
  | pushb b => exact inputs_keptBySplitter.pushb b s
  | eot => exact inputs_keptBySplitter.eot s
  | wrk | wrv | rdv | rdst | rst | emit | enc | dec => rfl

/-- The result goes on and has given one response, of the form of R77, and nothing that the host does next is taken. -/
def AnsweredOnce (s : State) (o : Result) : Prop :=
  ∃ t r, o = .next t ∧ t.resp = s.resp ++ [r] ∧ wellFormedResponse r ∧ inputsKept s t

theorem answeredOnce_raise (e : CoreError) (s : State) : AnsweredOnce s (raise e s) :=
  ⟨_, _, rfl, rfl, errorCode_wellFormed e, rfl⟩

theorem answeredOnce_exec (i : Instr) (s : State) : AnsweredOnce s (exec i s) := by
  cases he : commandError i s with
  | some e => exact exec_of_error he ▸ answeredOnce_raise e s
  | none =>
    refine ⟨_, ⟨0#4, commandData i s⟩, exec_of_no_error he, ?_, okResponse_wellFormed _,
      commandEffect_keepsInputs i s⟩
    rw [addResponse_resp, commandEffect_resp]

theorem answeredOnce_performCommand (c : CommandWord) (s : State) : AnsweredOnce s (performCommand c s) := by
  unfold performCommand
  cases decode c with
  | ok i => exact answeredOnce_exec i s
  | error _ => exact answeredOnce_raise .illegal s

/-- Settles O16: a legal word is answered by its command, an illegal one by ILLEGAL. -/
theorem everyCommandAnsweredOnce : Obligations.EveryCommandAnsweredOnce := by
  intro s c rest hinputs
  rw [step_of_inputs_cons hinputs]
  exact answeredOnce_performCommand c { s with inputs := rest }

end Sys2Proof.Machine

/-! PROOFS. The functions of the splitter: what `Pad` and `Split` make of a text (40_blocksplitter.md R100 to R102). -/

namespace Sys2Proof.Machine

/-! ### `Pad` -/

/-- 40_blocksplitter.md R101. -/
theorem chunkBytes_pad {p : List Byte} (hp : p.length ≤ 4) :
    chunkBytes (pad p) = p ++ List.replicate (4 - p.length) Config.fill := by
  match p, hp with
  | [], _ | [_], _ | [_, _], _ | [_, _, _], _ | [_, _, _, _], _ => rfl

/-- Settles O42: `Pad` computes on a list of each length from 0 to 4. -/
theorem padFillsToFourBytes : Obligations.PadFillsToFourBytes :=
  fun _ hp => chunkBytes_pad hp

/-! ### `Split` -/

/-- A text is a remainder of at most three bytes, with full chunks put before it one by one: the recursion of `Split`. -/
theorem text_induction {P : List Byte → Prop} (remainder : ∀ t, t.length < 4 → P t)
    (chunk : ∀ b0 b1 b2 b3 t, P t → P (b0 :: b1 :: b2 :: b3 :: t)) : ∀ t, P t
  | b0 :: b1 :: b2 :: b3 :: t => chunk b0 b1 b2 b3 t (text_induction remainder chunk t)
  | [] => remainder [] (by decide)
  | [_] => remainder [_] (by simp)
  | [_, _] => remainder [_, _] (by simp)
  | [_, _, _] => remainder [_, _, _] (by simp)

/-- The remainder of a text is one padded chunk, or none where no byte remains. -/
theorem split_remainder {t : List Byte} (ht : t.length < 4) : split t = if t.length % 4 = 0 then [] else [pad t] := by
  rw [Nat.mod_eq_of_lt ht]
  split
  next h0 => rw [List.length_eq_zero_iff.1 h0, split_nil]
  next h0 => exact split_short t (fun hnil => h0 (List.length_eq_zero_iff.2 hnil)) ht

/-- Settles O43: a chunk put before the text is chunk 0, and moves the others and the remainder along by four bytes. -/
theorem splitCutsTheText : Obligations.SplitCutsTheText := by
  intro t
  induction t using text_induction with
  | remainder t ht =>
    rw [split_remainder ht, Nat.div_eq_of_lt ht]
    split <;> rfl
  | chunk b0 b1 b2 b3 t ih =>
    have hdiv : (b0 :: b1 :: b2 :: b3 :: t).length / 4 = t.length / 4 + 1 :=
      Nat.add_div_right t.length (by decide : 0 < 4)
    have hmod : (b0 :: b1 :: b2 :: b3 :: t).length % 4 = t.length % 4 := Nat.add_mod_right t.length 4
    have hdrop (j : Nat) : (b0 :: b1 :: b2 :: b3 :: t).drop (4 * (j + 1)) = t.drop (4 * j) := rfl
    rw [split_cons_four, List.map_cons, ih, hdiv, hmod, hdrop, List.range_succ_eq_map, List.map_cons, List.map_map]
    rfl

/-- `ceil(len(t) / 4)` chunks (40_blocksplitter.md R102 (a)). -/
theorem split_length (t : List Byte) : (split t).length = (t.length + 3) / 4 := by
  induction t using text_induction with
  | remainder t ht =>
    rw [split_remainder ht]
    split <;> simp <;> omega
  | chunk b0 b1 b2 b3 t ih =>
    simp only [split_cons_four, List.length_cons, ih]
    omega

/-- The chunks together are the text, filled up to whole chunks (40_blocksplitter.md R102 (c)). -/
theorem split_flatMap_chunkBytes (t : List Byte) :
    (split t).flatMap chunkBytes = t ++ List.replicate ((4 - t.length % 4) % 4) Config.fill := by
  induction t using text_induction with
  | remainder t ht =>
    rw [split_remainder ht, Nat.mod_eq_of_lt ht]
    split
    next h0 => simp [List.length_eq_zero_iff.1 h0]
    next h0 =>
      have hfill : (4 - t.length) % 4 = 4 - t.length := Nat.mod_eq_of_lt (by omega)
      rw [List.flatMap_singleton, chunkBytes_pad ht.le, hfill]
  | chunk b0 b1 b2 b3 t ih =>
    have hmod : (b0 :: b1 :: b2 :: b3 :: t).length % 4 = t.length % 4 := Nat.add_mod_right t.length 4
    rw [split_cons_four, List.flatMap_cons, ih, hmod]
    rfl

/-- Settles O44: the count of the chunks, and their bytes, each by the recursion of `Split`. -/
theorem splitKeepsTheText : Obligations.SplitKeepsTheText :=
  fun t => ⟨split_length t, split_flatMap_chunkBytes t⟩

end Sys2Proof.Machine

/-! PROOFS. The commands of the splitter, and `Deliver`, by which they fill the pair (40_blocksplitter.md R104 to R106). -/

namespace Sys2Proof.Machine

/-! ### `Deliver` -/

/-- The registers after one of them is written, read by index. -/
theorem getElem_set_fin {α : Type} {n : Nat} (v : Vector α n) {i : Nat} (hi : i < n) (x : α) (j : Fin n) :
    (v.set i x hi)[j] = if j.val = i then x else v[j] := by
  simp only [Fin.getElem_fin, Vector.getElem_set, eq_comm]

/-- A delivered chunk goes to `V[SLOT]`, and `SLOT` counts it. -/
theorem deliver_of_lt (c : Chunk) (s : State) (h : s.slot.val < 2) :
    deliver c s = { s with v := s.v.set s.slot (encodeChunk c), slot := ⟨s.slot.val + 1, by omega⟩ } := by
  obtain ⟨k, kv, v, cb, cn, slot, err, sum, rnd, out, resp, inputs, freeTick⟩ := s
  match slot, h with
  | 0, _ => rfl
  | 1, _ => rfl

/-- Settles O22: one register of `V` is written by index, and the other fields of the record stand as they were. -/
theorem deliverFillsNextSlot : Obligations.DeliverFillsNextSlot := by
  intro c s hslot
  rw [deliver_of_lt c s hslot]
  exact ⟨getElem_set_fin s.v hslot (encodeChunk c), rfl, rfl, ⟨rfl, rfl⟩, ⟨rfl, rfl⟩, rfl, ⟨rfl, rfl, rfl⟩, rfl,
    rfl⟩

/-! ### The hidden registers under a command -/

theorem sum_keptBySplitter : KeptBySplitter State.sum := ⟨storeByte_sum, deliver_sum, clearCount_sum⟩
theorem rnd_keptBySplitter : KeptBySplitter State.rnd := ⟨storeByte_rnd, deliver_rnd, clearCount_rnd⟩
theorem freeTick_keptBySplitter : KeptBySplitter State.freeTick :=
  ⟨storeByte_freeTick, deliver_freeTick, clearCount_freeTick⟩

/-- 10_state.md R28: only the cipher commands and reset write `SUM` and `RND`. -/
theorem commandEffect_keepsHidden {i : Instr} (s : State) (henc : i ≠ .enc) (hdec : i ≠ .dec) (hrst : i ≠ .rst) :
    hiddenKept s (commandEffect i s) := by
  cases i with
  | enc => exact absurd rfl henc
  | dec => exact absurd rfl hdec
  | rst => exact absurd rfl hrst
  | pushb b => exact ⟨sum_keptBySplitter.pushb b s, rnd_keptBySplitter.pushb b s, freeTick_keptBySplitter.pushb b s⟩
  | eot => exact ⟨sum_keptBySplitter.eot s, rnd_keptBySplitter.eot s, freeTick_keptBySplitter.eot s⟩
  | wrk | wrv | rdv | rdst | emit => exact ⟨rfl, rfl, rfl⟩

/-- A command that takes effect and is answered OK has given that one response. -/
theorem answered_commandEffect (i : Instr) (data : Word) (s : State) :
    answered 0#4 data s (addResponse 0#4 data (commandEffect i s)) :=
  congrArg (· ++ [(⟨0#4, data⟩ : Response)]) (commandEffect_resp i s)

/-! ### `PUSHB` -/

/-- The first three bytes of a chunk (40_blocksplitter.md R105). -/
theorem pushb_effect_of_room (b : Byte) {s : State} (hcn : s.cn.val < 3) :
    commandEffect (.pushb b) s = { s with cb := s.cb.set s.cn b, cn := ⟨s.cn.val + 1, by omega⟩ } :=
  (if_pos hcn).trans (storeByte_of_lt b s hcn)

/-- The fourth byte of a chunk (40_blocksplitter.md R105). -/
theorem pushb_effect_of_three (b : Byte) {s : State} (hslot : s.slot.val < 2) (hcn : ¬ s.cn.val < 3) :
    commandEffect (.pushb b) s =
      { s with v := s.v.set s.slot (encodeChunk (completedChunk b s)), slot := ⟨s.slot.val + 1, by omega⟩, cn := 0 } :=
  (if_neg hcn).trans (congrArg clearCount (deliver_of_lt _ s hslot))

/-- Settles O23: the frame is that of the command's effect, and `CN` decides between the two things it can do. -/
theorem pushbStoresOrDelivers : Obligations.PushbStoresOrDelivers := by
  intro b s hslot
  refine ⟨_, exec_pushb_of_not_full b hslot, answered_commandEffect (.pushb b) _ s,
    commandEffect_keepsKey s nofun nofun, commandEffect_keepsErrors s nofun, commandEffect_keepsHidden s nofun nofun nofun,
    commandEffect_keepsOutput s nofun, commandEffect_keepsInputs _ s, ?_⟩
  split
  next hcn =>
    rw [pushb_effect_of_room b hcn]
    exact ⟨getElem_set_fin s.cb hcn b, rfl, rfl, rfl⟩
  next hcn =>
    have hroom : s.slot.val < 2 := by omega
    rw [pushb_effect_of_three b hroom hcn]
    exact ⟨rfl, rfl, rfl, getElem_set_fin s.v hroom _⟩

/-! ### `EOT` -/

@[simp] theorem encodeChunk_fillerChunk : encodeChunk fillerChunk = 0x2E2E2E2E#32 := by decide

theorem flushPending_of_none {s : State} (hcn : s.cn = 0) : flushPending s = s :=
  if_neg (by simp [hcn])

theorem flushPending_of_some {s : State} (hcn : s.cn ≠ 0) :
    flushPending s = clearCount (deliver (pad (pending s)) s) :=
  if_pos (Fin.pos_of_ne_zero hcn)

theorem completePair_of_half {s : State} (hslot : s.slot = 1) : completePair s = deliver fillerChunk s :=
  if_pos hslot

theorem completePair_of_not_half {s : State} (hslot : s.slot ≠ 1) : completePair s = s :=
  if_neg hslot

@[simp] theorem flushPending_cb (s : State) : (flushPending s).cb = s.cb := by
  unfold flushPending; split <;> simp

@[simp] theorem completePair_cb (s : State) : (completePair s).cb = s.cb := by
  unfold completePair; split <;> simp

/-- Neither part of `EOT` writes `CB` (log entry 9). -/
theorem eot_effect_cb (s : State) : (commandEffect .eot s).cb = s.cb := by
  simp only [commandEffect]
  split
  · rw [completePair_cb, flushPending_cb]
  · rfl

theorem eot_effect_of_not_full {s : State} (hslot : s.slot < 2) :
    commandEffect .eot s = completePair (flushPending s) :=
  if_pos hslot

/-- The full pair, in the table of 40_blocksplitter.md R106. -/
theorem eot_effect_of_full {s : State} (hslot : s.slot = 2) : commandEffect .eot s = s :=
  if_neg (by simp [hslot])

/-- The empty pair with nothing pending (R106). -/
theorem eot_effect_of_empty_none {s : State} (hslot : s.slot = 0) (hcn : s.cn = 0) : commandEffect .eot s = s := by
  rw [eot_effect_of_not_full (by simp [hslot]), flushPending_of_none hcn, completePair_of_not_half (by simp [hslot])]

/-- The empty pair with a short chunk pending: the padded chunk and the filler chunk (R106). -/
theorem eot_effect_of_empty_some {s : State} (hslot : s.slot = 0) (hcn : s.cn ≠ 0) :
    commandEffect .eot s =
      { s with v := (s.v.set 0 (encodeChunk (pad (pending s)))).set 1 0x2E2E2E2E#32, slot := 2, cn := 0 } := by
  rw [eot_effect_of_not_full (by simp [hslot]), flushPending_of_some hcn, deliver_of_empty _ s hslot,
    completePair_of_half (by rfl), deliver_of_half _ _ (by rfl), encodeChunk_fillerChunk]
  rfl

/-- The half-filled pair with nothing pending: the filler chunk (R106). -/
theorem eot_effect_of_half_none {s : State} (hslot : s.slot = 1) (hcn : s.cn = 0) :
    commandEffect .eot s = { s with v := s.v.set 1 0x2E2E2E2E#32, slot := 2 } := by
  rw [eot_effect_of_not_full (by simp [hslot]), flushPending_of_none hcn, completePair_of_half hslot,
    deliver_of_half _ s hslot, encodeChunk_fillerChunk]

/-- The half-filled pair with a short chunk pending: the padded chunk (R106). -/
theorem eot_effect_of_half_some {s : State} (hslot : s.slot = 1) (hcn : s.cn ≠ 0) :
    commandEffect .eot s = { s with v := s.v.set 1 (encodeChunk (pad (pending s))), slot := 2, cn := 0 } := by
  rw [eot_effect_of_not_full (by simp [hslot]), flushPending_of_some hcn, deliver_of_half _ s hslot,
    completePair_of_not_half (by simp)]
  rfl

/-- Settles O25: the frame is that of the command's effect, and each case is its line of the table. -/
theorem eotPadsAndCompletesThePair : Obligations.EotPadsAndCompletesThePair := by
  intro s
  refine ⟨_, exec_of_no_error rfl, answered_commandEffect .eot _ s, commandEffect_keepsKey s nofun nofun,
    eot_effect_cb s, commandEffect_keepsErrors s nofun, commandEffect_keepsHidden s nofun nofun nofun,
    commandEffect_keepsOutput s nofun, commandEffect_keepsInputs _ s,
    fun hslot hcn => ?emptyNone, fun hslot hcn => ?emptySome, fun hslot hcn => ?halfNone, fun hslot hcn => ?halfSome,
    fun hslot => ?full⟩
  case emptyNone =>
    rw [eot_effect_of_empty_none hslot hcn]
    exact ⟨hslot, hcn, rfl⟩
  case emptySome =>
    rw [eot_effect_of_empty_some hslot hcn]
    exact ⟨rfl, rfl, by simp, by simp⟩
  case halfNone =>
    rw [eot_effect_of_half_none hslot hcn]
    exact ⟨rfl, hcn, by simp, by simp⟩
  case halfSome =>
    rw [eot_effect_of_half_some hslot hcn]
    exact ⟨rfl, rfl, by simp, by simp⟩
  case full =>
    rw [eot_effect_of_full hslot]
    exact ⟨hslot, rfl, rfl⟩

end Sys2Proof.Machine

/-! PROOFS. The WordCodec: the forms of `Encode` and `Decode`, and `EMIT` (41_wordcodec.md R120 to R124). -/

namespace Sys2Proof.Machine

/-! ### `Encode` -/

/-- `cat` of four bytes is the `|` of their shifts: each byte is widened with zeros (41_wordcodec.md R120). -/
theorem encodeChunk_eq_shiftLeft_or (c : Chunk) :
    encodeChunk c = (c.b0.setWidth 32 <<< 24) ||| (c.b1.setWidth 32 <<< 16) ||| (c.b2.setWidth 32 <<< 8)
      ||| c.b3.setWidth 32 :=
  calc encodeChunk c = (encodeChunk c).setWidth 32 := (BitVec.setWidth_eq _).symm
    _ = _ := BitVec.setWidth_append_append_append_eq_shiftLeft_setWidth_or

/-- Each byte of a chunk lies in its own field of the word (41_wordcodec.md R120, R122). -/
@[simp] theorem decodeWord_encodeChunk (c : Chunk) : decodeWord (encodeChunk c) = c := by
  have hb0 : (encodeChunk c).extractLsb' 24 8 = c.b0 := by
    rw [encodeChunk, BitVec.extractLsb'_append_eq_of_le (by decide), BitVec.extractLsb'_append_eq_of_le (by decide),
      BitVec.extractLsb'_append_eq_left]
  have hb1 : (encodeChunk c).extractLsb' 16 8 = c.b1 := by
    rw [encodeChunk, BitVec.extractLsb'_append_eq_of_le (by decide), BitVec.extractLsb'_append_eq_of_le (by decide),
      BitVec.extractLsb'_append_eq_right]
  have hb2 : (encodeChunk c).extractLsb' 8 8 = c.b2 := by
    rw [encodeChunk, BitVec.extractLsb'_append_eq_of_le (by decide), BitVec.extractLsb'_append_eq_right]
  have hb3 : (encodeChunk c).extractLsb' 0 8 = c.b3 := BitVec.extractLsb'_append_eq_right
  rw [decodeWord, hb0, hb1, hb2, hb3]

theorem encodeChunk_injective : Function.Injective encodeChunk :=
  Function.LeftInverse.injective decodeWord_encodeChunk

/-- Settles O39: the bit fields of an encoded chunk are those that `Decode` reads, so `Decode` undoes `Encode`. -/
theorem chunkEncodingIsBigEndian : Obligations.ChunkEncodingIsBigEndian := by
  refine ⟨fun c => ⟨encodeChunk_eq_shiftLeft_or c, encodeChunk_toNat c, ?_⟩, fun _ _ h => encodeChunk_injective h⟩
  have hdecode : decodeWord (encodeChunk c) = c := decodeWord_encodeChunk c
  exact ⟨congrArg Chunk.b0 hdecode, congrArg Chunk.b1 hdecode, congrArg Chunk.b2 hdecode, congrArg Chunk.b3 hdecode⟩

/-! ### `Decode` -/

/-- A bit field widened with zeros is what a shift brings down and a mask of ones leaves (00_scope.md R10). -/
theorem setWidth_extractLsb'_eq_ushiftRight_and {w : Nat} (x : BitVec w) (start len : Nat) :
    (x.extractLsb' start len).setWidth w = (x >>> start) &&& (BitVec.allOnes len).setWidth w := by
  ext j hj
  simp [Bool.and_comm]

/-- Settles O40: `Decode` reads the bit fields by definition, and each of them is a shift and a mask of eight ones. -/
theorem wordDecodingIsBigEndian : Obligations.WordDecodingIsBigEndian := by
  intro w
  refine ⟨rfl, ?_⟩
  have hbyte (start : Nat) : (w.extractLsb' start 8).setWidth 32 = (w >>> start) &&& 0xFF#32 :=
    setWidth_extractLsb'_eq_ushiftRight_and w start 8
  simp only [chunkBytes, decodeWord, List.map_cons, List.map_nil, hbyte, BitVec.ushiftRight_zero]

/-! ### `EMIT` -/

/-- Settles O26: the frame is that of the command's effect, which appends the bytes of both words and clears `SLOT`. -/
theorem emitPutsThePairOut : Obligations.EmitPutsThePairOut := by
  intro s
  have hout : (commandEffect .emit s).out = s.out ++ pairBytes s.v[0] s.v[1] := rfl
  exact ⟨_, exec_of_no_error rfl, hout, rfl, answered_commandEffect .emit _ s, commandEffect_keepsKey s nofun nofun,
    rfl, ⟨rfl, rfl⟩, commandEffect_keepsErrors s nofun, commandEffect_keepsHidden s nofun nofun nofun,
    commandEffect_keepsInputs _ s⟩

end Sys2Proof.Machine

/-! PROOFS. The TeaCipher: its mixing function, its rounds and their loops in both directions, the commands `ENC` and `DEC`, and
the round engine that performs them (42_teacipher.md R140 to R155). -/

namespace Sys2Proof.Machine

/-! ### The mixing function (R140) -/

/-- Settles O33: each operator of `F` is its operator on numbers (00_scope.md R9). -/
theorem mixingFunctionOnNumbers : Obligations.MixingFunctionOnNumbers := by
  intro x s ka kb
  simp only [mix, BitVec.toNat_xor, BitVec.toNat_add, BitVec.toNat_shiftLeft, BitVec.toNat_ushiftRight, Nat.shiftLeft_eq,
    Nat.shiftRight_eq_div_pow]

/-! ### One round (R141, R142) -/

/-- Settles O34: the definitions of the two rounds, their statements written out. -/
theorem roundsFollowTheDocument : Obligations.RoundsFollowTheDocument :=
  fun _ _ _ _ => ⟨⟨_, _, _, rfl, rfl, rfl, rfl⟩, _, _, _, rfl, rfl, rfl, rfl⟩

/-- The decrypt round subtracts, in the opposite order, what the encrypt round added. -/
theorem decRound_encRound (k : Key) (r : CipherState) : decRound k (encRound k r) = r := by
  simp only [encRound, decRound, BitVec.add_sub_cancel]

theorem encRound_decRound (k : Key) (r : CipherState) : encRound k (decRound k r) = r := by
  simp only [encRound, decRound, BitVec.sub_add_cancel]

/-- Settles O35: each statement of a round is undone by the statement of the other that mixes the same operands. -/
theorem roundsUndoEachOther : Obligations.RoundsUndoEachOther :=
  fun k r => ⟨decRound_encRound k r, encRound_decRound k r⟩

/-! ### The loop (R143, R145) -/

theorem runRounds_eq_iterate (f : CipherState → CipherState) (n : Nat) (r : CipherState) : runRounds f n r = f^[n] r := by
  induction n generalizing r with
  | zero => rfl
  | succ n ih => exact ih (f r)

theorem encryptLoop_eq_iterate (k : Key) (v0 v1 : Word) : encryptLoop k v0 v1 = (encRound k)^[32] ⟨v0, v1, 0#32⟩ :=
  runRounds_eq_iterate _ _ _

theorem decryptLoop_eq_iterate (k : Key) (v0 v1 : Word) :
    decryptLoop k v0 v1 = (decRound k)^[32] ⟨v0, v1, 0xC6EF3720#32⟩ :=
  runRounds_eq_iterate _ _ _

/-- Settles O36: a loop of rounds is the iterate of the round, and `Encrypt` and `Decrypt` take the pair as the loop left it. -/
theorem cipherIsThirtyTwoRounds : Obligations.CipherIsThirtyTwoRounds := by
  intro v0 v1 k
  rw [encrypt, decrypt, encryptLoop_eq_iterate, decryptLoop_eq_iterate]
  exact ⟨rfl, rfl⟩

/-! ### The sum (R144) -/

/-- A loop whose round adds a constant to the sum, whatever the data and the key, adds it once for each round. -/
theorem runRounds_sum {f : CipherState → CipherState} {c : Word} (hround : ∀ r, (f r).sum = r.sum + c) (n : Nat)
    (r : CipherState) : (runRounds f n r).sum = r.sum + BitVec.ofNat 32 n * c := by
  induction n with
  | zero => simp
  | succ n ih =>
    rw [runRounds_succ_last, hround, ih, BitVec.ofNat_add, BitVec.add_mul, BitVec.one_mul, BitVec.add_assoc]

theorem encryptRounds_sum (k : Key) (v0 v1 : Word) (n : Nat) :
    (runRounds (encRound k) n ⟨v0, v1, 0#32⟩).sum = BitVec.ofNat 32 (n * 0x9E3779B9) := by
  have hround (r : CipherState) : (encRound k r).sum = r.sum + 0x9E3779B9#32 := rfl
  rw [runRounds_sum hround, BitVec.zero_add, BitVec.ofNat_mul]

/-- The starting sum of `Decrypt` is 32 times `DELTA`, and each round takes one of them off. -/
theorem decryptRounds_sum (k : Key) (v0 v1 : Word) {n : Nat} (hn : n ≤ 32) :
    (runRounds (decRound k) n ⟨v0, v1, 0xC6EF3720#32⟩).sum = BitVec.ofNat 32 ((32 - n) * 0x9E3779B9) := by
  have hround (r : CipherState) : (decRound k r).sum = r.sum + -0x9E3779B9#32 := BitVec.sub_eq_add_neg _ _
  have hstart : 0xC6EF3720#32 = BitVec.ofNat 32 ((32 - n) * 0x9E3779B9) + BitVec.ofNat 32 (n * 0x9E3779B9) := by
    rw [← BitVec.ofNat_add, ← Nat.add_mul, Nat.sub_add_cancel hn]
    rfl
  rw [runRounds_sum hround, BitVec.mul_neg, ← BitVec.sub_eq_add_neg, ← BitVec.ofNat_mul, hstart, BitVec.add_sub_cancel]

theorem encryptLoop_sum (k : Key) (v0 v1 : Word) : (encryptLoop k v0 v1).sum = 0xC6EF3720#32 :=
  encryptRounds_sum k v0 v1 32

theorem decryptLoop_sum (k : Key) (v0 v1 : Word) : (decryptLoop k v0 v1).sum = 0#32 :=
  decryptRounds_sum k v0 v1 le_rfl

/-- Settles O37: every round adds or takes off one `DELTA`, and the whole loops are those of 32 rounds. -/
theorem roundSums : Obligations.RoundSums :=
  ⟨fun v0 v1 k r hr => ⟨encryptRounds_sum k v0 v1 r, decryptRounds_sum k v0 v1 hr⟩,
    fun v0 v1 k => ⟨encryptLoop_sum k v0 v1, decryptLoop_sum k v0 v1⟩⟩

/-! ### Both directions at once -/

/-- The other direction. -/
def Direction.opposite : Direction → Direction
  | .encryption => .decryption
  | .decryption => .encryption

/-- The round of a direction (R141, R142). -/
def cipherRound : Direction → Key → CipherState → CipherState
  | .encryption => encRound
  | .decryption => decRound

/-- The sum that the loop of a direction starts from (R143, R145). -/
def startSum : Direction → Word
  | .encryption => 0#32
  | .decryption => 0xC6EF3720#32

/-- The loop of a direction: `encryptLoop` or `decryptLoop`. -/
def cipherLoop : Direction → Key → Word → Word → CipherState
  | .encryption => encryptLoop
  | .decryption => decryptLoop

theorem cipherLoop_eq_runRounds (d : Direction) (k : Key) (v0 v1 : Word) :
    cipherLoop d k v0 v1 = runRounds (cipherRound d k) 32 ⟨v0, v1, startSum d⟩ := by
  cases d with
  | encryption | decryption => rfl

/-- Either loop ends at the sum that the other one starts from (R144). -/
theorem cipherLoop_sum (d : Direction) (k : Key) (v0 v1 : Word) : (cipherLoop d k v0 v1).sum = startSum d.opposite := by
  cases d with
  | encryption => exact encryptLoop_sum k v0 v1
  | decryption => exact decryptLoop_sum k v0 v1

theorem cipherRound_leftInverse (d : Direction) (k : Key) :
    Function.LeftInverse (cipherRound d.opposite k) (cipherRound d k) := by
  cases d with
  | encryption => exact decRound_encRound k
  | decryption => exact encRound_decRound k

/-- The loop of the other direction starts where this one ended, and undoes its rounds one by one (R149). -/
theorem cipherLoop_opposite (d : Direction) (k : Key) (v0 v1 : Word) :
    cipherLoop d.opposite k (cipherLoop d k v0 v1).v0 (cipherLoop d k v0 v1).v1 = ⟨v0, v1, startSum d⟩ :=
  calc cipherLoop d.opposite k (cipherLoop d k v0 v1).v0 (cipherLoop d k v0 v1).v1
      = runRounds (cipherRound d.opposite k) 32 (cipherLoop d k v0 v1) := by
        rw [cipherLoop_eq_runRounds d.opposite, ← cipherLoop_sum d k v0 v1]
    _ = (cipherRound d.opposite k)^[32] ((cipherRound d k)^[32] ⟨v0, v1, startSum d⟩) := by
        rw [cipherLoop_eq_runRounds d, runRounds_eq_iterate, runRounds_eq_iterate]
    _ = ⟨v0, v1, startSum d⟩ := (cipherRound_leftInverse d k).iterate 32 _

/-! ### The commands (R146, R147) -/

/-- What the cipher command of a direction does to the registers: the loop on the pair, under the key. -/
theorem cipherCommand_effect (d : Direction) (s : State) :
    commandEffect (cipherCommand d) s = writeCipherState (cipherLoop d s.k s.v[0] s.v[1]) s := by
  cases d with
  | encryption | decryption => rfl

/-- With the whole key a cipher command raises nothing (60_exceptions.md R212). -/
theorem cipherCommand_noError (d : Direction) {s : State} (hkey : keyLoaded s) : commandError (cipherCommand d) s = none := by
  cases d with
  | encryption | decryption => exact if_pos hkey

theorem exec_cipherCommand (d : Direction) {s : State} (hkey : keyLoaded s) :
    exec (cipherCommand d) s = .next (addResponse 0#4 0#32 (writeCipherState (cipherLoop d s.k s.v[0] s.v[1]) s)) := by
  have hdata : commandData (cipherCommand d) s = 0#32 := by
    cases d with
    | encryption | decryption => rfl
  rw [exec_of_no_error (cipherCommand_noError d hkey), hdata, cipherCommand_effect, respondOk]

/-- A cipher command with the whole key: the pair, the hidden registers (log entry 13), the answer, and all that stays. -/
theorem exec_cipherCommand_frame (d : Direction) {s : State} (hkey : keyLoaded s) :
    ∃ t, exec (cipherCommand d) s = .next t
      ∧ (t.v[0], t.v[1]) = ((cipherLoop d s.k s.v[0] s.v[1]).v0, (cipherLoop d s.k s.v[0] s.v[1]).v1)
      ∧ t.sum = startSum d.opposite ∧ t.rnd.val = 32 ∧ t.freeTick = s.freeTick
      ∧ answered 0#4 0#32 s t ∧ keyKept s t ∧ bufferKept s t ∧ slotKept s t ∧ errorsKept s t ∧ outputKept s t
      ∧ inputsKept s t :=
  ⟨_, exec_cipherCommand d hkey, rfl, cipherLoop_sum d s.k s.v[0] s.v[1], rfl, rfl, rfl, ⟨rfl, rfl⟩, ⟨rfl, rfl⟩, rfl, rfl,
    rfl, rfl⟩

/-- Settles O28: the encrypt loop on the pair, which ends at the sum that the decrypt loop starts from. -/
theorem encEncryptsThePair : Obligations.EncEncryptsThePair :=
  fun _ => exec_cipherCommand_frame .encryption

/-- Settles O29: the decrypt loop on the pair, which ends at the sum that the encrypt loop starts from. -/
theorem decDecryptsThePair : Obligations.DecDecryptsThePair :=
  fun _ => exec_cipherCommand_frame .decryption

/-- `V` written back word by word. -/
theorem pair_eta (v : Vector Word 2) : #v[v[0], v[1]] = v := by
  ext i hi
  match i, hi with
  | 0, _ => rfl
  | 1, _ => rfl

/-- A cipher command keeps the key whole, so the one of the other direction completes too, and restores the pair. -/
theorem performAll_cipherCommand_opposite (d : Direction) {s : State} (hkey : keyLoaded s) :
    ∃ t, performAll [cipherCommand d, cipherCommand d.opposite] s = .next t ∧ t.v = s.v := by
  have hfirst := exec_cipherCommand d hkey
  have hsecond := exec_cipherCommand d.opposite (s := addResponse 0#4 0#32
    (writeCipherState (cipherLoop d s.k s.v[0] s.v[1]) s)) hkey
  have hpair := cipherLoop_opposite d s.k s.v[0] s.v[1]
  exact ⟨_, (performAll_cons_of_next hfirst _).trans (performAll_cons_of_next hsecond []),
    (congrArg (fun r : CipherState => #v[r.v0, r.v1]) hpair).trans (pair_eta s.v)⟩

/-- Settles O31: the loop of the other direction undoes the loop, whichever comes first. -/
theorem cipherCommandsUndoEachOther : Obligations.CipherCommandsUndoEachOther :=
  fun _ hkey => ⟨performAll_cipherCommand_opposite .encryption hkey, performAll_cipherCommand_opposite .decryption hkey⟩

/-! ### The round engine (R152, R153) -/

/-- A state whose engine registers `(V[0], V[1], SUM, RND)` hold a CipherState and a count of rounds. -/
def withEngine (r : CipherState) (rnd : Fin 33) (s : State) : State :=
  { writePair r.v0 r.v1 s with sum := r.sum, rnd := rnd }

theorem engineStart_eq_withEngine (d : Direction) (s : State) :
    engineStart d s = withEngine ⟨s.v[0], s.v[1], startSum d⟩ 0 s := by
  rw [withEngine, writePair, pair_eta]
  cases d with
  | encryption | decryption => rfl

/-- A running engine does one round and counts it. -/
theorem engineStep_withEngine (d : Direction) (r : CipherState) {rnd : Fin 33} (hrnd : rnd.val < 32) (s : State) :
    engineStep d (withEngine r rnd s) = withEngine (cipherRound d s.k r) (rnd + 1) s := by
  cases d with
  | encryption | decryption => exact if_pos hrnd

/-- The engine stops when `RND = 32`. -/
theorem engineStep_of_stopped (d : Direction) {s : State} (hrnd : s.rnd.val = 32) : engineStep d s = s :=
  if_neg hrnd.not_lt

/-- By the count of the rounds that are left: the engine does them all and leaves the registers of a completed loop. -/
theorem engineRun_withEngine (d : Direction) (n : Nat) (r : CipherState) (rnd : Fin 33) (hleft : rnd.val + n = 32)
    (s : State) : engineRun d n (withEngine r rnd s) = writeCipherState (runRounds (cipherRound d s.k) n r) s := by
  induction n generalizing r rnd with
  | zero =>
    obtain rfl : rnd = 32 := Fin.ext hleft
    rfl
  | succ n ih =>
    have hcount : (rnd + 1).val = rnd.val + 1 := Fin.val_add_one_of_lt (show rnd.val < 32 by omega)
    rw [engineRun_succ, engineStep_withEngine d r (by omega), ih _ _ (by omega), runRounds_succ]

/-- Settles O32: the 32 rounds left at the start are the loop of the command, and at `RND = 32` the engine stands still. -/
theorem roundEngineRefinesCipherCommands : Obligations.RoundEngineRefinesCipherCommands := by
  refine ⟨fun d s hkey => ?_, fun d _ hrnd => engineStep_of_stopped d hrnd⟩
  rw [exec_cipherCommand d hkey, engineStart_eq_withEngine, engineRun_withEngine d 32 _ 0 rfl, cipherLoop_eq_runRounds]

end Sys2Proof.Machine

/-! PROOFS. The text level: the pairs of chunks, the transform of a text in either direction, and its blocks
(43_pipeline.md R170 to R174, R176). -/

namespace Sys2Proof.Machine

/-! ### Pairs of chunks (R170) -/

theorem pairs_flatMap_chunks (cs : List Chunk) :
    (pairs cs).flatMap (fun p => [p.1, p.2]) = cs ++ if cs.length % 2 = 1 then [fillerChunk] else [] := by
  induction cs using pairs.induct with
  | case1 c0 c1 cs ih =>
    have hmod : (c0 :: c1 :: cs).length % 2 = cs.length % 2 := Nat.add_mod_right cs.length 2
    rw [pairs_cons_two, List.flatMap_cons, ih, hmod]
    rfl
  | case2 c => rw [pairs_one]; rfl
  | case3 => rw [pairs_nil]; rfl

theorem pairs_length (cs : List Chunk) : (pairs cs).length = (cs.length + 1) / 2 := by
  induction cs using pairs.induct with
  | case1 c0 c1 cs ih =>
    simp only [pairs_cons_two, List.length_cons, ih]
    omega
  | case2 c => simp
  | case3 => simp

/-- Settles O45: the pairs written out as chunks again, and counted, by the recursion of `Pairs`. -/
theorem pairsAreConsecutive : Obligations.PairsAreConsecutive :=
  fun cs => ⟨pairs_flatMap_chunks cs, pairs_length cs⟩

/-! ### The transform of a text, in both directions at once (R171, R172) -/

/-- `Encrypt` or `Decrypt`: the pair as the loop of a direction leaves it (R143, R145). -/
def cipherBlock (d : Direction) (k : Key) (v0 v1 : Word) : Word × Word :=
  ((cipherLoop d k v0 v1).v0, (cipherLoop d k v0 v1).v1)

theorem transformText_eq_flatMap (d : Direction) (t : List Byte) (k : Key) :
    transformText d t k = (pairs (split t)).flatMap (transformPair (cipherBlock d k)) := by
  cases d with
  | encryption | decryption => rfl

@[simp] theorem transformText_nil (d : Direction) (k : Key) : transformText d [] k = [] := by
  rw [transformText_eq_flatMap, split_nil, pairs_nil, List.flatMap_nil]

/-- The first eight bytes of a text are a pair of their own. -/
theorem transformText_append_pair (d : Direction) (c0 c1 : Chunk) (t : List Byte) (k : Key) :
    transformText d (chunkBytes c0 ++ chunkBytes c1 ++ t) k
      = transformPair (cipherBlock d k) (c0, c1) ++ transformText d t k := by
  have hsplit : split (chunkBytes c0 ++ chunkBytes c1 ++ t) = c0 :: c1 :: split t :=
    (split_cons_four c0.b0 c0.b1 c0.b2 c0.b3 _).trans
      (congrArg (c0 :: ·) (split_cons_four c1.b0 c1.b1 c1.b2 c1.b3 t))
  rw [transformText_eq_flatMap, hsplit, pairs_cons_two, List.flatMap_cons, ← transformText_eq_flatMap]

/-! ### Lengths (R173) -/

/-- Eight bytes for each pair of chunks. -/
theorem transformText_length_of_chunks (d : Direction) (t : List Byte) (k : Key) :
    (transformText d t k).length = 8 * (((t.length + 3) / 4 + 1) / 2) := by
  simp only [transformText_eq_flatMap, List.length_flatMap, transformPair_length, List.map_const', List.sum_replicate,
    pairs_length, split_length, smul_eq_mul, Nat.mul_comm]

/-- The length of the text, up to whole blocks. -/
theorem transformText_length (d : Direction) (t : List Byte) (k : Key) :
    (transformText d t k).length = 8 * ((t.length + 7) / 8) := by
  rw [transformText_length_of_chunks]
  omega

/-- Settles O46: both formulas hold in both directions. -/
theorem textLength : Obligations.TextLength :=
  fun t k => ⟨transformText_length_of_chunks .encryption t k, transformText_length .encryption t k,
    (transformText_length .decryption t k).trans (transformText_length .encryption t k).symm⟩

/-! ### Blocks (R176) -/

/-- A text is a remainder of fewer than eight bytes, with whole blocks put before it one by one. -/
theorem block_induction {P : List Byte → Prop} (remainder : ∀ t, t.length < 8 → P t)
    (block : ∀ c0 c1 t, P t → P (chunkBytes c0 ++ chunkBytes c1 ++ t)) : ∀ t, P t
  | b0 :: b1 :: b2 :: b3 :: b4 :: b5 :: b6 :: b7 :: t =>
    block ⟨b0, b1, b2, b3⟩ ⟨b4, b5, b6, b7⟩ t (block_induction remainder block t)
  | [] => remainder _ (by simp)
  | [_] => remainder _ (by simp)
  | [_, _] => remainder _ (by simp)
  | [_, _, _] => remainder _ (by simp)
  | [_, _, _, _] => remainder _ (by simp)
  | [_, _, _, _, _] => remainder _ (by simp)
  | [_, _, _, _, _, _] => remainder _ (by simp)
  | [_, _, _, _, _, _, _] => remainder _ (by simp)

/-- Settles O48: the first block is transformed apart from the rest, and a later block is one of the rest. -/
theorem blocksAreIndependent : Obligations.BlocksAreIndependent := by
  intro d t k p
  induction t using block_induction generalizing p with
  | remainder t ht =>
    have hlength := transformText_length d t k
    cases p with
    | zero => rw [Nat.mul_zero, List.drop_zero, List.drop_zero, List.take_of_length_le (by omega),
        List.take_of_length_le (by omega)]
    | succ p => rw [List.drop_of_length_le (by omega), List.drop_of_length_le (by omega), List.take_nil,
        transformText_nil]
  | block c0 c1 t ih =>
    rw [transformText_append_pair]
    cases p with
    | zero =>
      have hblock := transformText_append_pair d c0 c1 [] k
      rw [transformText_nil, List.append_nil, List.append_nil] at hblock
      exact hblock.symm
    | succ p => exact ih p

/-! ### The round trip (R174) -/

/-- 41_wordcodec.md R122: the bytes of a word, counted up again, are the word. -/
@[simp] theorem encodeChunk_decodeWord (w : Word) : encodeChunk (decodeWord w) = w := by
  apply BitVec.eq_of_toNat_eq
  simp only [encodeChunk_toNat, decodeWord, BitVec.extractLsb'_toNat, Nat.shiftRight_eq_div_pow]
  omega

/-- The output bytes of a pair, taken as a pair again and transformed in the other direction, are its own bytes (R149). -/
theorem transformPair_opposite (d : Direction) (k : Key) (p : Chunk × Chunk) :
    transformPair (cipherBlock d.opposite k)
      (decodeWord (cipherBlock d k (encodeChunk p.1) (encodeChunk p.2)).1,
        decodeWord (cipherBlock d k (encodeChunk p.1) (encodeChunk p.2)).2) = chunkBytes p.1 ++ chunkBytes p.2 := by
  simp only [transformPair, pairBytes, cipherBlock, encodeChunk_decodeWord, cipherLoop_opposite, decodeWord_encodeChunk]

/-- The transform of the other direction finds each pair of the output and restores its bytes. -/
theorem transformText_opposite_pairs (d : Direction) (k : Key) (ps : List (Chunk × Chunk)) :
    transformText d.opposite (ps.flatMap (transformPair (cipherBlock d k))) k
      = ps.flatMap fun p => chunkBytes p.1 ++ chunkBytes p.2 := by
  induction ps with
  | nil => exact transformText_nil d.opposite k
  | cons p ps ih =>
    rw [List.flatMap_cons, List.flatMap_cons, transformPair, pairBytes, transformText_append_pair, transformPair_opposite, ih]

/-- The bytes of the pairs are the text, followed by fillers: those of the last chunk and those of the last pair. -/
theorem pairs_split_flatMap_bytes (t : List Byte) :
    ∃ n, (pairs (split t)).flatMap (fun p => chunkBytes p.1 ++ chunkBytes p.2) = t ++ List.replicate n Config.fill := by
  have hbytes (p : Chunk × Chunk) : chunkBytes p.1 ++ chunkBytes p.2 = [p.1, p.2].flatMap chunkBytes := rfl
  have hfiller : [fillerChunk].flatMap chunkBytes = List.replicate 4 Config.fill := rfl
  simp only [hbytes, ← List.flatMap_assoc, pairs_flatMap_chunks, List.flatMap_append, split_flatMap_chunkBytes,
    List.append_assoc]
  split
  · rw [hfiller, List.replicate_append_replicate]
    exact ⟨_, rfl⟩
  · rw [List.flatMap_nil, List.append_nil]
    exact ⟨_, rfl⟩

/-- Settles O47: decrypting restores the bytes of the pairs, and the lengths say how many fillers these end with. -/
theorem textRoundTrip : Obligations.TextRoundTrip := by
  intro t k
  obtain ⟨n, hfill⟩ := pairs_split_flatMap_bytes t
  have hdecrypt : decryptText (encryptText t k) k = t ++ List.replicate n Config.fill :=
    (transformText_opposite_pairs .encryption k (pairs (split t))).trans hfill
  have hcipher : (encryptText t k).length = 8 * ((t.length + 7) / 8) := transformText_length .encryption t k
  have hplain : (decryptText (encryptText t k) k).length = 8 * (((encryptText t k).length + 7) / 8) :=
    transformText_length .decryption (encryptText t k) k
  rw [hdecrypt, List.length_append, List.length_replicate] at hplain
  have hn : n = (encryptText t k).length - t.length := by omega
  exact ⟨hn ▸ hdecrypt, by omega, by omega⟩

end Sys2Proof.Machine

/-! PROOFS. The stream path: the host's canonical sequence appends the transform of the text to OUT (43_pipeline.md R175). By the
bytes of the text that is still to come: at every moment the core holds the bytes pushed since the last block went out. -/

namespace Sys2Proof.Machine

/-! ### What the commands of the sequence have done so far -/

/-- From `s` to `u` the core has put the bytes `bs` out and answered every command OK, and it has the whole key `k`. -/
structure Streamed (k : Key) (bs : List Byte) (s u : State) : Prop where
  key_eq : u.k = k
  key_loaded : keyLoaded u
  out_eq : u.out = s.out ++ bs
  answers_ok : ∃ rs, u.resp = s.resp ++ rs ∧ ∀ r ∈ rs, r.st = 0#4
  errors_kept : errorsKept s u
  inputs_kept : inputsKept s u

/-- One more command that is answered OK. -/
theorem Streamed.answer {k : Key} {bs bs' : List Byte} {s t u : State} {data : Word} (hs : Streamed k bs s t)
    (hanswer : answered 0#4 data t u) (hkey : keyKept t u) (herr : errorsKept t u) (hinputs : inputsKept t u)
    (hout : u.out = s.out ++ bs') : Streamed k bs' s u := by
  obtain ⟨rs, hresp, hok⟩ := hs.answers_ok
  obtain ⟨hk, hkv⟩ := hkey
  refine ⟨hk.trans hs.key_eq, hkv.trans hs.key_loaded, hout, ⟨rs ++ [⟨0#4, data⟩], ?_, ?_⟩, herr.trans hs.errors_kept,
    hinputs.trans hs.inputs_kept⟩
  · rw [hanswer, hresp, List.append_assoc]
  · intro r hr
    obtain hold | hnew := List.mem_append.1 hr
    · exact hok r hold
    · rw [List.mem_singleton.1 hnew]

/-- Every key word written, in index order (30_encoding.md R80). -/
theorem vector_set_all {α : Type} (v k : Vector α 4) :
    (((v.set 0 k[0]).set 1 k[1]).set 2 k[2]).set 3 k[3] = k := by
  ext i hi
  match i, hi with
  | 0, _ | 1, _ | 2, _ | 3, _ => simp

theorem keyValidBits_all (kv : BitVec 4) :
    kv ||| BitVec.twoPow 4 0 ||| BitVec.twoPow 4 1 ||| BitVec.twoPow 4 2 ||| BitVec.twoPow 4 3 = 0b1111#4 := by
  revert kv
  decide

/-- `KEY`: the core has the whole key, and what it holds of a text is as it was. -/
theorem performAll_loadKeyCommands (k : Key) (s : State) :
    ∃ t, performAll (loadKeyCommands k) s = .next t ∧ Streamed k [] s t ∧ bufferKept s t ∧ slotKept s t := by
  refine ⟨_, rfl, ⟨vector_set_all s.k k, keyValidBits_all s.kv, (List.append_nil _).symm,
    ⟨List.replicate 4 ⟨0#4, 0#32⟩, ?_, ?_⟩, rfl, rfl⟩, ⟨rfl, rfl⟩, rfl⟩
  · simp [List.replicate]
  · intro r hr
    rw [List.eq_of_mem_replicate hr]

/-! ### What the core holds of the text -/

/-- The chunks `cs` stand in the pair and the bytes `bs` wait (10_state.md R23 to R25). -/
structure Holding (cs : List Chunk) (bs : List Byte) (s : State) : Prop where
  slot_eq : s.slot.val = cs.length
  pending_eq : pending s = bs
  word_eq : ∀ j : Fin 2, ∀ c ∈ cs[j.val]?, s.v[j] = encodeChunk c

theorem pending_of_none {s : State} (hcn : s.cn = 0) : pending s = [] := by
  rw [pending, hcn]
  rfl

theorem Holding.cn_eq {cs : List Chunk} {bs : List Byte} {s : State} (hs : Holding cs bs s) : s.cn.val = bs.length := by
  rw [← hs.pending_eq, pending_length]

theorem Holding.cn_eq_zero_iff {cs : List Chunk} {bs : List Byte} {s : State} (hs : Holding cs bs s) :
    s.cn = 0 ↔ bs = [] := by
  rw [← List.length_eq_zero_iff, ← hs.cn_eq, Fin.ext_iff]
  rfl

theorem Holding.slot_ne_two {cs : List Chunk} {bs : List Byte} {s : State} (hs : Holding cs bs s) (hroom : cs.length < 2) :
    s.slot ≠ 2 :=
  fun hslot => hroom.ne (hs.slot_eq.symm.trans (congrArg Fin.val hslot))

theorem holding_nil_iff {s : State} : Holding [] [] s ↔ readyForText s := by
  constructor
  · exact fun hs => ⟨Fin.ext hs.cn_eq, Fin.ext hs.slot_eq⟩
  · rintro ⟨hcn, hslot⟩
    exact ⟨congrArg Fin.val hslot, pending_of_none hcn, nofun⟩

theorem holding_pair_iff {c0 c1 : Chunk} {s : State} : Holding [c0, c1] [] s ↔
    s.slot = 2 ∧ s.cn = 0 ∧ s.v[0] = encodeChunk c0 ∧ s.v[1] = encodeChunk c1 := by
  constructor
  · exact fun hs => ⟨Fin.ext hs.slot_eq, Fin.ext hs.cn_eq, hs.word_eq 0 c0 rfl, hs.word_eq 1 c1 rfl⟩
  · rintro ⟨hslot, hcn, h0, h1⟩
    refine ⟨congrArg Fin.val hslot, pending_of_none hcn, fun j c hc => ?_⟩
    match j with
    | 0 => cases hc; exact h0
    | 1 => cases hc; exact h1

/-- A delivered chunk is held behind those delivered before it (40_blocksplitter.md R104). -/
theorem Holding.append_chunk {cs : List Chunk} {bs : List Byte} {c : Chunk} {s t : State} (hs : Holding cs bs s)
    (hslot : t.slot.val = s.slot.val + 1) (hcn : t.cn = 0)
    (hwords : ∀ j : Fin 2, t.v[j] = if j.val = s.slot.val then encodeChunk c else s.v[j]) :
    Holding (cs ++ [c]) [] t := by
  have hlength : (cs ++ [c]).length = cs.length + 1 := List.length_append
  refine ⟨by rw [hslot, hs.slot_eq, hlength], pending_of_none hcn, fun j c' hc' => ?_⟩
  have hj : j.val < (cs ++ [c]).length := (List.getElem?_eq_some_iff.1 hc').1
  rw [hwords, hs.slot_eq]
  split
  next hlast =>
    rw [hlast, List.getElem?_concat_length] at hc'
    exact congrArg encodeChunk (Option.some.inj hc')
  next hold =>
    rw [List.getElem?_append_left (by omega)] at hc'
    exact hs.word_eq j c' hc'

/-- The bytes held: those of the chunks, and those that wait. -/
def heldBytes (cs : List Chunk) (bs : List Byte) : List Byte := cs.flatMap chunkBytes ++ bs

theorem split_heldBytes (cs : List Chunk) (bs : List Byte) : split (heldBytes cs bs) = cs ++ split bs := by
  induction cs with
  | nil => rfl
  | cons c cs ih => exact (split_cons_four c.b0 c.b1 c.b2 c.b3 (heldBytes cs bs)).trans (congrArg (c :: ·) ih)

theorem Holding.split_pending {cs : List Chunk} {bs : List Byte} {s : State} (hs : Holding cs bs s) (hbs : bs ≠ []) :
    split bs = [pad bs] :=
  split_short bs hbs (by have := hs.cn_eq; omega)

/-! ### The host's decision (log entry 15) -/

theorem lastData_of_answered {st : BitVec 4} {data : Word} {s t : State} (h : answered st data s t) : lastData t = data := by
  rw [lastData, h, List.getLast?_concat]

/-- The last answer was `SLOT` as it is now, which is how `PUSHB` and `EOT` answer (40_blocksplitter.md R105, R106). -/
abbrev answeredSlot (s : State) : Prop := lastData s = slotWord s

theorem slotWord_eq_two_iff (s : State) : slotWord s = 2#32 ↔ s.slot = 2 := by
  rw [slotWord]
  generalize s.slot = slot
  revert slot
  decide

theorem drainFullPair_of_not_full (d : Direction) {s : State} (hdata : answeredSlot s) (hslot : s.slot ≠ 2) :
    drainFullPair d s = .next s :=
  if_neg fun h => hslot ((slotWord_eq_two_iff s).1 (hdata.symm.trans h))

theorem andThen_of_next {o : Result} {t : State} (h : o = .next t) (f : State → Result) : andThen o f = f t := by
  rw [h, andThen]

/-- The full pair: the cipher command and `EMIT` put its block out, and the core holds nothing (41_wordcodec.md R124,
42_teacipher.md R146, R147). -/
theorem drainFullPair_of_full (d : Direction) {k : Key} {out : List Byte} {s t : State} {c0 c1 : Chunk}
    (hstream : Streamed k out s t) (hdata : answeredSlot t) (hfull : Holding [c0, c1] [] t) :
    ∃ u, drainFullPair d t = .next u ∧ Streamed k (out ++ transformPair (cipherBlock d k) (c0, c1)) s u ∧
      Holding [] [] u := by
  obtain ⟨hslot, hcn, hword0, hword1⟩ := holding_pair_iff.1 hfull
  obtain ⟨t', hcipher, hpair, -, -, -, hanswer, hkey, ⟨-, hcn'⟩, -, herr, hout, hinputs⟩ :=
    exec_cipherCommand_frame d hstream.key_loaded
  have hciphered : Streamed k out s t' := hstream.answer hanswer hkey herr hinputs (hout.trans hstream.out_eq)
  obtain ⟨u, hemit, hbytes, hslot', hanswer', hkey', -, ⟨-, hcn''⟩, herr', -, hinputs'⟩ := emitPutsThePairOut t'
  have hout' : u.out = s.out ++ (out ++ transformPair (cipherBlock d k) (c0, c1)) := by
    rw [hword0, hword1, hstream.key_eq] at hpair
    obtain ⟨hv0, hv1⟩ := Prod.mk.inj hpair
    rw [hbytes, hciphered.out_eq, hv0, hv1, List.append_assoc]
    rfl
  refine ⟨u, ?_, hciphered.answer hanswer' hkey' herr' hinputs' hout',
    holding_nil_iff.2 ⟨hcn''.trans (hcn'.trans hcn), hslot'⟩⟩
  have htwo : lastData t = 2#32 := hdata.trans ((slotWord_eq_two_iff t).2 hslot)
  rw [drainFullPair, if_pos htwo, performAll_cons_of_next hcipher, performAll_cons_of_next hemit, performAll]

/-! ### `PUSHB` and `EOT` -/

/-- `PUSHB` with room in the pair: the core holds one byte more, and if that fills the pair, then none waits
(40_blocksplitter.md R105). -/
theorem exec_pushb_holding {k : Key} {out : List Byte} {s t : State} {cs : List Chunk} {bs : List Byte}
    (hstream : Streamed k out s t) (hheld : Holding cs bs t) (hroom : cs.length < 2) (b : Byte) :
    ∃ u cs' bs', exec (.pushb b) t = .next u ∧ Streamed k out s u ∧ answeredSlot u ∧ Holding cs' bs' u ∧
      heldBytes cs' bs' = heldBytes cs bs ++ [b] ∧ (cs'.length < 2 ∨ cs'.length = 2 ∧ bs' = []) := by
  have hslot : t.slot ≠ 2 := hheld.slot_ne_two hroom
  obtain ⟨u, hexec, hanswer, hkey, herr, -, hout, hinputs, hcase⟩ := pushbStoresOrDelivers b t hslot
  have hstream' : Streamed k out s u := hstream.answer hanswer hkey herr hinputs (hout.trans hstream.out_eq)
  have hdata : answeredSlot u := lastData_of_answered hanswer
  split at hcase
  next hcn =>
    obtain ⟨-, -, hpair, hslotKept⟩ := hcase
    obtain ⟨u', hexec', hwaiting⟩ := exec_pushb_stores ⟨rfl, hheld.pending_eq⟩ b hslot (hheld.cn_eq ▸ hcn)
    obtain rfl : u = u' := Host.Outcome.next.inj (hexec.symm.trans hexec')
    refine ⟨u, cs, bs ++ [b], hexec, hstream', hdata, ⟨?_, hwaiting.pending_eq, ?_⟩, ?_, .inl hroom⟩
    · rw [hslotKept, hheld.slot_eq]
    · rw [hpair]
      exact hheld.word_eq
    · exact (List.append_assoc _ _ _).symm
  next hcn =>
    obtain ⟨-, hcn', hslot', hwords⟩ := hcase
    obtain ⟨b0, b1, b2, rfl⟩ : ∃ b0 b1 b2, bs = [b0, b1, b2] :=
      List.length_eq_three.1 (by have := hheld.cn_eq; omega)
    have hchunk := completedChunk_of_pending hheld.pending_eq b
    refine ⟨u, cs ++ [completedChunk b t], [], hexec, hstream', hdata, hheld.append_chunk hslot' hcn' hwords, ?_, ?_⟩
    · rw [hchunk]
      simp [heldBytes, chunkBytes]
    · rw [List.length_append]
      exact (Nat.lt_or_eq_of_le hroom).imp_right fun htwo => ⟨htwo, rfl⟩

/-- `EOT`: the core holds no byte, or the bytes it held fill one pair (40_blocksplitter.md R106). -/
theorem exec_eot_holding {k : Key} {out : List Byte} {s t : State} {cs : List Chunk} {bs : List Byte}
    (hstream : Streamed k out s t) (hheld : Holding cs bs t) (hroom : cs.length < 2) :
    ∃ u, exec .eot t = .next u ∧ Streamed k out s u ∧ answeredSlot u ∧
      (heldBytes cs bs = [] ∧ Holding [] [] u ∨
        ∃ c0 c1, pairs (split (heldBytes cs bs)) = [(c0, c1)] ∧ Holding [c0, c1] [] u) := by
  obtain ⟨u, hexec, hanswer, hkey, -, herr, -, hout, hinputs, emptyNone, emptySome, halfNone, halfSome, -⟩ :=
    eotPadsAndCompletesThePair t
  refine ⟨u, hexec, hstream.answer hanswer hkey herr hinputs (hout.trans hstream.out_eq), lastData_of_answered hanswer, ?_⟩
  rw [split_heldBytes]
  match cs, hroom with
  | [], _ =>
    have hslot : t.slot = 0 := Fin.ext hheld.slot_eq
    by_cases hbs : bs = []
    · obtain ⟨hslot', hcn', -⟩ := emptyNone hslot (hheld.cn_eq_zero_iff.2 hbs)
      exact .inl ⟨hbs, holding_nil_iff.2 ⟨hcn', hslot'⟩⟩
    · obtain ⟨hslot', hcn', hword0, hword1⟩ := emptySome hslot (hbs ∘ hheld.cn_eq_zero_iff.1)
      rw [hheld.pending_eq] at hword0
      rw [hheld.split_pending hbs]
      exact .inr ⟨pad bs, fillerChunk, pairs_one _,
        holding_pair_iff.2 ⟨hslot', hcn', hword0, hword1.trans encodeChunk_fillerChunk.symm⟩⟩
  | [c], _ =>
    have hslot : t.slot = 1 := Fin.ext hheld.slot_eq
    have hfirst : t.v[0] = encodeChunk c := hheld.word_eq 0 c rfl
    by_cases hbs : bs = []
    · obtain ⟨hslot', hcn', hword0, hword1⟩ := halfNone hslot (hheld.cn_eq_zero_iff.2 hbs)
      rw [hbs, split_nil, List.append_nil]
      exact .inr ⟨c, fillerChunk, pairs_one c,
        holding_pair_iff.2 ⟨hslot', hcn', hword0.trans hfirst, hword1.trans encodeChunk_fillerChunk.symm⟩⟩
    · obtain ⟨hslot', hcn', hword0, hword1⟩ := halfSome hslot (hbs ∘ hheld.cn_eq_zero_iff.1)
      rw [hheld.pending_eq] at hword1
      rw [hheld.split_pending hbs]
      exact .inr ⟨c, pad bs, pairs_cons_two c (pad bs) [],
        holding_pair_iff.2 ⟨hslot', hcn', hword0.trans hfirst, hword1⟩⟩

/-! ### The whole text -/

theorem streamText_cons {d : Direction} {b : Byte} {t : List Byte} {s s' s'' : State} (hexec : exec (.pushb b) s = .next s')
    (hdrain : drainFullPair d s' = .next s'') : streamText d (b :: t) s = streamText d t s'' := by
  rw [streamText, streamBytes, andThen_of_next hexec, andThen_of_next hdrain, ← streamText]

/-- By the bytes still to come: a byte joins those held, and the block goes out when they are eight; `EOT` sends out what is left,
filled up (43_pipeline.md R175). -/
theorem streamText_holding (d : Direction) {k : Key} (t : List Byte) {out : List Byte} {s s' : State} {cs : List Chunk}
    {bs : List Byte} (hstream : Streamed k out s s') (hheld : Holding cs bs s') (hroom : cs.length < 2) :
    ∃ u, streamText d t s' = .next u ∧ Streamed k (out ++ transformText d (heldBytes cs bs ++ t) k) s u ∧
      Holding [] [] u := by
  induction t generalizing out s' cs bs with
  | nil =>
    obtain ⟨u, hexec, hstream', hdata, hcase⟩ := exec_eot_holding hstream hheld hroom
    rw [List.append_nil, streamText, streamBytes, andThen, andThen_of_next hexec]
    obtain ⟨hnone, hready⟩ | ⟨c0, c1, hpair, hfull⟩ := hcase
    · rw [hnone, transformText_nil, List.append_nil]
      obtain ⟨-, hslot⟩ := holding_nil_iff.1 hready
      exact ⟨u, drainFullPair_of_not_full d hdata (by simp [hslot]), hstream', hready⟩
    · rw [transformText_eq_flatMap, hpair, List.flatMap_singleton]
      exact drainFullPair_of_full d hstream' hdata hfull
  | cons b t ih =>
    obtain ⟨u, cs', bs', hexec, hstream', hdata, hheld', hbytes, hcase⟩ := exec_pushb_holding hstream hheld hroom b
    have htext : heldBytes cs bs ++ b :: t = heldBytes cs' bs' ++ t := by rw [hbytes, List.append_assoc, List.singleton_append]
    rw [htext]
    obtain hroom' | ⟨htwo, rfl⟩ := hcase
    · rw [streamText_cons hexec (drainFullPair_of_not_full d hdata (hheld'.slot_ne_two hroom'))]
      exact ih hstream' hheld' hroom'
    · obtain ⟨c0, c1, rfl⟩ := List.length_eq_two.1 htwo
      obtain ⟨w, hdrain, hemitted, hnothing⟩ := drainFullPair_of_full d hstream' hdata hheld'
      have hblock : transformText d (heldBytes [c0, c1] [] ++ t) k
          = transformPair (cipherBlock d k) (c0, c1) ++ transformText d t k := transformText_append_pair d c0 c1 t k
      rw [streamText_cons hexec hdrain, hblock, ← List.append_assoc]
      exact ih hemitted hnothing (by decide)

/-- Settles O49: the key is loaded, the core holds nothing of the text, and the sequence streams it byte by byte. -/
theorem streamPathComputesTheText : Obligations.StreamPathComputesTheText := by
  intro d k t s ⟨hcn, hslot⟩
  obtain ⟨s', hload, hstream, ⟨-, hcn'⟩, hslot'⟩ := performAll_loadKeyCommands k s
  have hnothing : Holding [] [] s' := holding_nil_iff.2 ⟨hcn'.trans hcn, hslot'.trans hslot⟩
  obtain ⟨u, htext, hdone, hready⟩ := streamText_holding d t hstream hnothing (by decide)
  obtain ⟨rs, hresp, hok⟩ := hdone.answers_ok
  exact ⟨u, rs, (andThen_of_next hload _).trans htext, hdone.out_eq, hresp, hok, holding_nil_iff.1 hready, hdone.key_eq,
    hdone.key_loaded, hdone.errors_kept, hdone.inputs_kept⟩

end Sys2Proof.Machine

/-! PROOFS. The host access commands: which registers `WRK`, `WRV` and `RST` write, and that `RDV` and `RDST` write none
(44_host_access.md R190 to R194). -/

namespace Sys2Proof.Machine

/-! ### A register written by index -/

/-- The registers after the one with the index `i` is written. -/
theorem getElem_set_index {α : Type} {n : Nat} (v : Vector α n) (i : Fin n) (x : α) (j : Fin n) :
    (v.set i x)[j] = if j = i then x else v[j] := by
  simp only [getElem_set_fin, Fin.ext_iff]

/-- One valid bit is set, and the others stay (10_state.md R22). -/
theorem markKeyValid_getLsbD (idx j : Fin 4) (s : State) :
    (markKeyValid idx s).kv.getLsbD j = (decide (j = idx) || s.kv.getLsbD j) := by
  have hbit : (BitVec.twoPow 4 idx).getLsbD j = decide (j = idx) := by
    simp [Fin.ext_iff, eq_comm]
  rw [markKeyValid_kv, BitVec.getLsbD_or, hbit, Bool.or_comm]

/-! ### The writes -/

/-- Settles O17: `WRK` writes one register of `K` by index and one bit of `KV`; the rest is the frame of its effect. -/
theorem wrkWritesKeyWord : Obligations.WrkWritesKeyWord := by
  intro idx w s
  exact ⟨_, exec_of_no_error rfl, getElem_set_index s.k idx w, fun j => markKeyValid_getLsbD idx j (writeKey idx w s),
    answered_commandEffect (.wrk idx w) _ s, rfl, ⟨rfl, rfl⟩, rfl, commandEffect_keepsErrors s nofun,
    commandEffect_keepsHidden s nofun nofun nofun, commandEffect_keepsOutput s nofun, commandEffect_keepsInputs _ s⟩

/-- Settles O18: `WRV` writes one register of `V` by index; the rest is the frame of its effect. -/
theorem wrvWritesDataWord : Obligations.WrvWritesDataWord := by
  intro idx w s
  exact ⟨_, exec_of_no_error rfl, getElem_set_index s.v idx w, answered_commandEffect (.wrv idx w) _ s,
    commandEffect_keepsKey s nofun nofun, ⟨rfl, rfl⟩, rfl, commandEffect_keepsErrors s nofun,
    commandEffect_keepsHidden s nofun nofun nofun, commandEffect_keepsOutput s nofun, commandEffect_keepsInputs _ s⟩

/-! ### The reads -/

/-- A command without error and without effect answers with its data and changes nothing (20_memory.md R62). -/
theorem exec_frame_of_no_effect {i : Instr} {s : State} (hok : commandError i s = none) (heffect : commandEffect i s = s) :
    ∃ t, exec i s = .next t ∧ answered 0#4 (commandData i s) s t ∧ keyKept s t ∧ pairKept s t ∧ bufferKept s t
      ∧ slotKept s t ∧ errorsKept s t ∧ hiddenKept s t ∧ outputKept s t ∧ inputsKept s t := by
  refine ⟨addResponse 0#4 (commandData i s) s, ?_, rfl, ⟨rfl, rfl⟩, rfl, ⟨rfl, rfl⟩, rfl, rfl, ⟨rfl, rfl, rfl⟩, rfl, rfl⟩
  rw [exec_of_no_error hok, heffect, respondOk]

/-- Settles O19: neither `RDV` nor `RDST` has an effect, and the data of each is what it reads. -/
theorem readsAnswerAndChangeNothing : Obligations.ReadsAnswerAndChangeNothing :=
  fun _ => ⟨fun idx => exec_frame_of_no_effect (i := .rdv idx) rfl rfl, exec_frame_of_no_effect (i := .rdst) rfl rfl⟩

/-! ### `RST` -/

/-- Settles O21: the effect of `RST` is reset, which keeps both records; the one response comes after it. -/
theorem rstResetsTheCore : Obligations.RstResetsTheCore :=
  fun s => ⟨_, exec_of_no_error rfl, archZero_resetCore s, answered_commandEffect .rst _ s,
    commandEffect_keepsOutput s nofun, commandEffect_keepsInputs .rst s⟩

end Sys2Proof.Machine

/-! PROOFS. The exceptions: when NOKEY and PAIRFULL are raised, and that a raised error writes its sticky bit and its response
alone (60_exceptions.md R212 to R214). -/

namespace Sys2Proof.Machine

/-! ### A failing command (R214) -/

/-- 60_exceptions.md R214 for `raise`, the one operation that takes an exception. -/
theorem onlyRaised_raised (e : CoreError) (s : State) :
    onlyRaised e s (addResponse (errorCode e) 0#32 (recordError e s)) :=
  ⟨rfl, rfl, ⟨rfl, rfl⟩, rfl, ⟨rfl, rfl⟩, rfl, ⟨rfl, rfl, rfl⟩, rfl, rfl⟩

theorem exec_raises {i : Instr} {s : State} {e : CoreError} (h : commandError i s = some e) :
    ∃ t, exec i s = .next t ∧ onlyRaised e s t :=
  ⟨_, exec_of_error h, onlyRaised_raised e s⟩

/-- A command does nothing but raise an error, or else its one response is OK. -/
theorem exec_raised_or_ok {i : Instr} {s t : State} (h : exec i s = .next t) :
    (∃ e, onlyRaised e s t) ∨ ∃ data, answered 0#4 data s t := by
  obtain ⟨e, -, rfl⟩ | ⟨-, rfl⟩ := exec_next_cases h
  · exact .inl ⟨e, onlyRaised_raised e s⟩
  · exact .inr ⟨_, answered_commandEffect i _ s⟩

/-- The same of a command word, which is a command or raises ILLEGAL (R211). -/
theorem performCommand_raised_or_ok {c : CommandWord} {s t : State} (h : performCommand c s = .next t) :
    (∃ e, onlyRaised e s t) ∨ ∃ data, answered 0#4 data s t := by
  unfold performCommand at h
  split at h
  next => exact exec_raised_or_ok h
  next =>
    obtain rfl := (raise_next_iff _ _ _).1 h
    exact .inl ⟨.illegal, onlyRaised_raised .illegal s⟩

/-- A command gives one response, so the last one is its own. -/
theorem answered_response_eq {st : BitVec 4} {data : Word} {s t : State} {r : Response} (h : answered st data s t)
    (hr : t.resp = s.resp ++ [r]) : r = ⟨st, data⟩ :=
  List.singleton_inj.1 (List.append_cancel_left (hr.symm.trans h))

/-- Settles O54: a status that is not 0 is not that of OK, so the command has raised an error and done nothing else. -/
theorem failingCommandChangesOnlyItsBit : Obligations.FailingCommandChangesOnlyItsBit := by
  intro s t c rest r hinputs h hr hst
  rw [step_of_inputs_cons hinputs] at h
  obtain ⟨e, hraised⟩ | ⟨data, hok⟩ := performCommand_raised_or_ok (s := { s with inputs := rest }) h
  · have ⟨_, hanswer, _⟩ := hraised
    exact ⟨e, congrArg Response.st (answered_response_eq hanswer hr), hraised⟩
  · exact absurd (congrArg Response.st (answered_response_eq hok hr)) hst

/-! ### NOKEY (R212) -/

/-- The key is whole when each of its four words is valid (10_state.md R22). -/
theorem keyLoaded_iff_all_valid (s : State) : keyLoaded s ↔ ∀ j : Fin 4, s.kv.getLsbD j = true := by
  rw [keyLoaded]
  generalize s.kv = kv
  revert kv
  decide

theorem cipherCommand_noKey (d : Direction) {s : State} (hkey : ¬ keyLoaded s) :
    commandError (cipherCommand d) s = some .noKey := by
  cases d with
  | encryption | decryption => exact if_neg hkey

/-- Settles O30: one missing key word is enough for NOKEY in both directions, and with all four the cipher is performed. -/
theorem cipherNeedsTheWholeKey : Obligations.CipherNeedsTheWholeKey := by
  refine fun s => ⟨fun ⟨j, hmissing⟩ => ?missing, fun hall => ?whole⟩
  case missing =>
    have hkey : ¬ keyLoaded s := fun h => Bool.eq_false_iff.1 hmissing ((keyLoaded_iff_all_valid s).1 h j)
    exact ⟨exec_raises (cipherCommand_noKey .encryption hkey), exec_raises (cipherCommand_noKey .decryption hkey)⟩
  case whole =>
    have hkey : keyLoaded s := (keyLoaded_iff_all_valid s).2 hall
    exact ⟨⟨_, exec_cipherCommand .encryption hkey, rfl⟩, ⟨_, exec_cipherCommand .decryption hkey, rfl⟩⟩

/-! ### PAIRFULL (R213) -/

theorem pushb_pairFull (b : Byte) {s : State} (hslot : s.slot = 2) : commandError (.pushb b) s = some .pairFull :=
  if_pos hslot

/-- Settles O24: `PUSHB` raises on a full pair, and `EOT`, which has no effect there, answers with `SLOT`. -/
theorem pushbOnFullPairRaises : Obligations.PushbOnFullPairRaises := by
  refine fun b s hslot => ⟨exec_raises (pushb_pairFull b hslot), ?_⟩
  have heffect : commandEffect .eot s = s := eot_effect_of_full hslot
  have hdata : commandData .eot s = 2#32 := by
    rw [commandData, heffect, (slotWord_eq_two_iff s).2 hslot]
  refine ⟨_, exec_of_no_error rfl, ?_, commandEffect_keepsErrors s nofun⟩
  exact hdata ▸ answered_commandEffect .eot _ s

end Sys2Proof.Machine

/-! PROOFS. The reset input, between two commands and in the middle of one (70_reset_and_hazards.md R240, R246). -/

namespace Sys2Proof.Machine

/-! ### The output of an abandoned command (R246) -/

/-- The consumer takes an `EMIT`'s bytes in their order, so those taken are a prefix of the pair's. -/
theorem takenBytes_of_emit {c : CommandWord} (taken : Fin 9) (s : State) (hemit : decode c = .ok .emit) :
    takenBytes c taken s = (pairBytes s.v[0] s.v[1]).take taken := by
  simp only [takenBytes, hemit]

/-- Only an `EMIT` puts bytes out (log entry 5). -/
theorem takenBytes_of_not_emit {c : CommandWord} (taken : Fin 9) (s : State) (hemit : decode c ≠ .ok .emit) :
    takenBytes c taken s = [] := by
  unfold takenBytes
  split
  next h => exact absurd h hemit
  next => rfl

@[simp] theorem abandonCommand_out (c : CommandWord) (taken : Fin 9) (s : State) :
    (abandonCommand c taken s).out = s.out ++ takenBytes c taken s := rfl

/-- The pair has eight bytes, so as many as the consumer has taken are there to be taken. -/
theorem length_take_pairBytes (v0 v1 : Word) (taken : Fin 9) : ((pairBytes v0 v1).take taken).length = taken := by
  rw [List.length_take, pairBytes_length, Nat.min_eq_left (Nat.le_of_lt_succ taken.isLt)]

/-- Settles O14: abandoning a command is reset after the bytes taken are put out, which are a prefix of the pair's eight for an
`EMIT` and none otherwise. -/
theorem resetDuringCommandAbandonsIt : Obligations.ResetDuringCommandAbandonsIt := by
  intro s c taken rest hinputs
  refine ⟨_, step_of_inputs_cons hinputs, archZero_resetCore _, rfl, rfl, fun hemit => ?emit, fun hemit => ?other⟩
  case emit =>
    refine ⟨(pairBytes s.v[0] s.v[1]).take taken, ?_, length_take_pairBytes _ _ taken, List.take_prefix _ _⟩
    rw [abandonCommand_out, takenBytes_of_emit taken _ hemit]
  case other =>
    rw [abandonCommand_out, takenBytes_of_not_emit taken _ hemit, List.append_nil]

/-! ### The reset input (R240) -/

/-- Settles O13: the step is reset of the state without the event, and reset writes neither record. -/
theorem resetInputZeroesTheCore : Obligations.ResetInputZeroesTheCore := by
  intro s rest hinputs
  have ⟨_, hreset⟩ := resetZeroesAllState
  obtain ⟨hzero, hout, hresp⟩ := hreset { s with inputs := rest }
  exact ⟨_, step_of_inputs_cons hinputs, hzero, hout, hresp, resetCore_inputs _⟩

end Sys2Proof.Machine

/-! PROOFS. What undoes what: the codec (41_wordcodec.md R122) and the cipher (42_teacipher.md R149); and where a run begins and
waits: the reset state (10_state.md R31, R32) and the idle step (60_exceptions.md R222). -/

namespace Sys2Proof.Machine

/-! ### Round trips -/

/-- Settles O41: each byte lies in its own field of the word, and the bytes of a word, counted up, are the word. -/
theorem codecRoundTrip : Obligations.CodecRoundTrip :=
  ⟨decodeWord_encodeChunk, encodeChunk_decodeWord⟩

/-- The pair that one direction leaves is taken back by the other (42_teacipher.md R149). -/
theorem cipherBlock_opposite (d : Direction) (k : Key) (v0 v1 : Word) :
    cipherBlock d.opposite k (cipherBlock d k v0 v1).1 (cipherBlock d k v0 v1).2 = (v0, v1) :=
  congrArg (fun r : CipherState => (r.v0, r.v1)) (cipherLoop_opposite d k v0 v1)

/-- Settles O38: the loop of the other direction undoes the loop, on either side. -/
theorem cipherRoundTrip : Obligations.CipherRoundTrip :=
  fun v0 v1 k => ⟨cipherBlock_opposite .encryption k v0 v1, cipherBlock_opposite .decryption k v0 v1⟩

/-! ### The reset state and the idle step -/

/-- With every architectural register zero no byte waits and every key word is zero, so only the responses are left to ask for. -/
theorem inv_of_archZero {s : State} (hzero : archZero s) (hresp : responsesWellFormed s) : s.Inv := by
  obtain ⟨hk, -, -, -, hcn, -, -⟩ := hzero
  exact ⟨fun _ => hcn, fun idx _ => hk idx, hresp⟩

/-- Settles O2: the reset state is all zero (R32) and no response has been given yet. -/
theorem resetStateMeetsInvariant : Obligations.ResetStateMeetsInvariant := by
  have ⟨hzero, _⟩ := resetZeroesAllState
  have hresp : responsesWellFormed State.reset := fun _ hmem => absurd hmem List.not_mem_nil
  exact inv_of_archZero hzero hresp

/-- Settles O12: a step with no event of the host to perform answers the state it found (log entry 1). -/
theorem idleStepHoldsState : Obligations.IdleStepHoldsState := by
  intro s hinputs
  rw [step, advance, hinputs]

end Sys2Proof.Machine
